-- ==== Sys2Proof/Word.lean ====
section
/-! DEFINITION. The words of the block: a byte (8 bits), the atomic single word of `WORD_W = 32` bits, the 40-bit
command and response words, and what an agent presents to its port. `spec/00_scope.md` R6, R9; `spec/30_encoding.md`
R81, R86. -/

namespace Sys2Proof

/-- One byte of `storage`, and the operand of PUSH (R22, R83). -/
abbrev Byte := BitVec 8

/-- The atomic single word, `WORD_W = 32` bits (R6). A cursor, a counter and `ticks` are each held in one. -/
abbrev Word := BitVec 32

/-- A command word `CMD[39:0]` (R81). -/
abbrev CmdWord := BitVec 40

/-- What an agent presents to its port: `CMD[37:0]`, opcode and operand. The port drives the two bits above (R82). -/
abbrev Request := BitVec 38

/-- A response word `RSP[39:0]` (R86). -/
abbrev RspWord := BitVec 40

/-- `x` is a value of `w` bits: it lies in `[0, 2^w - 1]` (R10). -/
def fits (w : Nat) (x : Word) : Bool := decide (x.toNat < 2 ^ w)

end Sys2Proof
end

