-- ==== Sys2Proof/Syntax.lean ====
section
/-! DEFINITION. The ten operations of `spec/30_encoding.md` R84 as one inductive, the contexts that issue them (R80,
R82) and the response that answers them (R86 to R88). -/

namespace Sys2Proof

/-- The three contexts, one port each (R80, R82). -/
inductive Ctx where
  /-- The main loop, consumer role. -/
  | c
  /-- The byte-received interrupt, producer role. -/
  | p
  /-- The periodic-tick interrupt, timer role. -/
  | t
deriving DecidableEq, Repr

/-- The two contexts that may issue a read-only query (R85). -/
inductive QueryCtx where
  | c
  | p
deriving DecidableEq, Repr

/-- The context a query is issued from. -/
def QueryCtx.toCtx : QueryCtx → Ctx
  | .c => .c
  | .p => .p

/-- The ten operations. An operation legal in one context only carries no context, and a query legal in C and P carries
which: a command issued from a context that may not issue it is no term of this type (R30, R85). -/
inductive Instr where
  /-- `push(byte) -> bool`, context P (R114). -/
  | push (imm8 : Byte)
  /-- `pop() -> Optional<byte>`, context C (R115). -/
  | pop
  /-- `available() -> integer`, contexts C and P (R116). -/
  | avail (q : QueryCtx)
  /-- `flush()`, context C (R117). -/
  | flush
  /-- Read of `overrunCount`, contexts C and P (R118). -/
  | rdovr (q : QueryCtx)
  /-- Read of `totalReceivedCount`, contexts C and P (R119). -/
  | rdtot (q : QueryCtx)
  /-- `onPeriodicTick()`, context T (R141). -/
  | tick
  /-- `now() -> integer`, contexts C and P (R142). -/
  | now (q : QueryCtx)
  /-- `delayBlocking(durationTicks)`, context C (R143). -/
  | delay (imm32 : Word)
  /-- `elapsedSince(startTick) -> integer`, contexts C and P (R144). -/
  | elapsed (q : QueryCtx) (imm32 : Word)
deriving DecidableEq, Repr

/-- The context an operation is issued in (R84, R85). -/
def Instr.ctx : Instr → Ctx
  | .push _ => .p
  | .pop => .c
  | .avail q => q.toCtx
  | .flush => .c
  | .rdovr q => q.toCtx
  | .rdtot q => q.toCtx
  | .tick => .t
  | .now q => q.toCtx
  | .delay _ => .c
  | .elapsed q _ => q.toCtx

/-- The four status values (R87). -/
inductive Status where
  | ok
  | full
  | empty
  | illegal
deriving DecidableEq, Repr

/-- A response: its status and its value, `value` 0 where the operation returns nothing (R86). -/
structure Response where
  status : Status
  value : Word
deriving DecidableEq, Repr

end Sys2Proof
end

