-- ==== Sys2Proof/WellFormed.lean ====
section
/-! DEFINITION. The one check that the types of Syntax do not carry: in a block with `TICK_W < 32` the operand of DELAY
and of ELAPSED is a value of `TICK_W` bits (`spec/30_encoding.md` R83, D22). -/

namespace Sys2Proof

/-- `i` is a legal command of a block whose tick counter has `tickW` bits (R83). -/
def Instr.wellFormed (tickW : Nat) : Instr → Bool
  | .push _ => true
  | .pop => true
  | .avail _ => true
  | .flush => true
  | .rdovr _ => true
  | .rdtot _ => true
  | .tick => true
  | .now _ => true
  | .delay imm32 => fits tickW imm32
  | .elapsed _ imm32 => fits tickW imm32

end Sys2Proof
end

