-- ==== Sys2Proof/Decode.lean ====
section
/-! DEFINITION. The command word and its decoder (`spec/30_encoding.md` R81 to R85, R89, R92), the encoder written from
the same table, the opcode table itself as rows of mask and match (R84), and the response word (R86, R87). -/

namespace Sys2Proof

/-- `CMD[39:38]` (R81). -/
def CmdWord.ctx (w : CmdWord) : BitVec 2 := w.extractLsb' 38 2

/-- `CMD[37:32]` (R81). -/
def CmdWord.opcode (w : CmdWord) : BitVec 6 := w.extractLsb' 32 6

/-- `CMD[31:0]` (R81). -/
def CmdWord.operand (w : CmdWord) : Word := w.extractLsb' 0 32

/-- The command word with the three given fields (R81). -/
def CmdWord.make (ctx : BitVec 2) (opcode : BitVec 6) (operand : Word) : CmdWord := ctx ++ (opcode ++ operand)

/-- `imm8 = CMD[7:0]` of a format B operand (R83). -/
def imm8Of (opd : Word) : Byte := opd.extractLsb' 0 8

/-- Bits `[31:8]` of a format B operand, which must be zero (R83). -/
def highOf (opd : Word) : BitVec 24 := opd.extractLsb' 8 24

/-- The `ctx` code of a context (R82). -/
def Ctx.code : Ctx → BitVec 2
  | .c => 0b00
  | .p => 0b01
  | .t => 0b10

/-- The context of a `ctx` code; `11` is reserved (R82). -/
def Ctx.ofCode (b : BitVec 2) : Option Ctx :=
  if b = 0b00 then some .c
  else if b = 0b01 then some .p
  else if b = 0b10 then some .t
  else none

/-- The command word a port carries: the port drives `ctx` above what the agent presents (R82). -/
def Ctx.drive (port : Ctx) (x : Request) : CmdWord := port.code ++ x

/-- Why a word is no legal command, one name for each clause of R89. -/
inductive Illegal where
  /-- R89 (a): `ctx = 11`. -/
  | reservedCtx
  /-- R89 (b): the opcode is not assigned. -/
  | unassignedOpcode (opcode : BitVec 6)
  /-- R89 (c): the context may not issue this opcode. -/
  | wrongContext (ctx : Ctx) (opcode : BitVec 6)
  /-- R89 (d): a must-be-zero operand bit is 1. -/
  | operandNotZero (operand : Word)
  /-- R83: an operand bit above `TICK_W` is 1. -/
  | operandTooWide (operand : Word)
deriving DecidableEq, Repr

/-- Format N: the operand is zero (R83). -/
def formatN (opd : Word) (i : Instr) : Except Illegal Instr :=
  if opd = 0 then .ok i else .error (.operandNotZero opd)

/-- Format B: the operand is one byte (R83). -/
def formatB (opd : Word) (f : Byte → Instr) : Except Illegal Instr :=
  if highOf opd = 0 then .ok (f (imm8Of opd)) else .error (.operandNotZero opd)

/-- The decoding algorithm of R92, total on every 40-bit word, for the tables' `TICK_W = 32`. -/
def decode (w : CmdWord) : Except Illegal Instr :=
  let op := w.opcode
  let opd := w.operand
  match Ctx.ofCode w.ctx with
  | none => .error .reservedCtx
  | some .c =>
    if op = 0x02 then formatN opd .pop
    else if op = 0x03 then formatN opd (.avail .c)
    else if op = 0x04 then formatN opd .flush
    else if op = 0x05 then formatN opd (.rdovr .c)
    else if op = 0x06 then formatN opd (.rdtot .c)
    else if op = 0x09 then formatN opd (.now .c)
    else if op = 0x0A then .ok (.delay opd)
    else if op = 0x0B then .ok (.elapsed .c opd)
    else if op = 0x01 ∨ op = 0x08 then .error (.wrongContext .c op)
    else .error (.unassignedOpcode op)
  | some .p =>
    if op = 0x01 then formatB opd .push
    else if op = 0x03 then formatN opd (.avail .p)
    else if op = 0x05 then formatN opd (.rdovr .p)
    else if op = 0x06 then formatN opd (.rdtot .p)
    else if op = 0x09 then formatN opd (.now .p)
    else if op = 0x0B then .ok (.elapsed .p opd)
    else if op = 0x02 ∨ op = 0x04 ∨ op = 0x08 ∨ op = 0x0A then .error (.wrongContext .p op)
    else .error (.unassignedOpcode op)
  | some .t =>
    if op = 0x08 then formatN opd .tick
    else if op = 0x01 ∨ op = 0x02 ∨ op = 0x03 ∨ op = 0x04 ∨ op = 0x05 ∨ op = 0x06 ∨ op = 0x09 ∨ op = 0x0A ∨ op = 0x0B then
      .error (.wrongContext .t op)
    else .error (.unassignedOpcode op)

/-- The decoder of a block whose tick counter has `tickW` bits: the operand of DELAY and ELAPSED is `CMD[TICK_W-1:0]`
and the bits above it must be zero (R83). -/
def decodeFor (tickW : Nat) (w : CmdWord) : Except Illegal Instr :=
  match decode w with
  | .error e => .error e
  | .ok i => if i.wellFormed tickW then .ok i else .error (.operandTooWide w.operand)

/-- The contexts that may issue an opcode (R85); none for an opcode that is not assigned. -/
def legalContexts (op : BitVec 6) : List Ctx :=
  if op = 0x01 then [.p]
  else if op = 0x02 ∨ op = 0x04 ∨ op = 0x0A then [.c]
  else if op = 0x08 then [.t]
  else if op = 0x03 ∨ op = 0x05 ∨ op = 0x06 ∨ op = 0x09 ∨ op = 0x0B then [.c, .p]
  else []

/-- The operand bits that must be zero for an opcode (R83): all of them in format N, `[31:8]` in format B, none in
format W. -/
def mustBeZero (op : BitVec 6) : Word :=
  if op = 0x01 then 0xFFFFFF00
  else if op = 0x0A ∨ op = 0x0B then 0
  else 0xFFFFFFFF

/-- The opcode of an operation (R84). -/
def Instr.opcode : Instr → BitVec 6
  | .push _ => 0x01
  | .pop => 0x02
  | .avail _ => 0x03
  | .flush => 0x04
  | .rdovr _ => 0x05
  | .rdtot _ => 0x06
  | .tick => 0x08
  | .now _ => 0x09
  | .delay _ => 0x0A
  | .elapsed _ _ => 0x0B

/-- The operand field of an operation: zero in format N, the byte below 24 zeros in format B, the word in format W
(R83). -/
def Instr.operand : Instr → Word
  | .push imm8 => (0 : BitVec 24) ++ imm8
  | .pop => 0
  | .avail _ => 0
  | .flush => 0
  | .rdovr _ => 0
  | .rdtot _ => 0
  | .tick => 0
  | .now _ => 0
  | .delay imm32 => imm32
  | .elapsed _ imm32 => imm32

/-- The command word of an operation (R81, R84). -/
def encode (i : Instr) : CmdWord := CmdWord.make i.ctx.code i.opcode i.operand

/-- What an agent presents to its port to have `i` performed: the word less its `ctx` bits (R82). -/
def Instr.request (i : Instr) : Request := i.opcode ++ i.operand

/-- One row of the opcode map (R84): a word `w` is the operation of the row iff `w & mask = pattern`. -/
structure OpcodeRow where
  mnemonic : String
  mask : CmdWord
  pattern : CmdWord
deriving DecidableEq, Repr

/-- `w & mask == match` (R84). -/
def OpcodeRow.selects (r : OpcodeRow) (w : CmdWord) : Bool := w &&& r.mask == r.pattern

/-- The ten rows of R84 and of `spec/opcode_table.json`. -/
def opcodeTable : List OpcodeRow :=
  [⟨"PUSH", 0xFFFFFFFF00, 0x4100000000⟩, ⟨"POP", 0xFFFFFFFFFF, 0x0200000000⟩, ⟨"AVAIL", 0xBFFFFFFFFF, 0x0300000000⟩,
    ⟨"FLUSH", 0xFFFFFFFFFF, 0x0400000000⟩, ⟨"RDOVR", 0xBFFFFFFFFF, 0x0500000000⟩] ++
  [⟨"RDTOT", 0xBFFFFFFFFF, 0x0600000000⟩, ⟨"TICK", 0xFFFFFFFFFF, 0x8800000000⟩, ⟨"NOW", 0xBFFFFFFFFF, 0x0900000000⟩,
    ⟨"DELAY", 0xFF00000000, 0x0A00000000⟩, ⟨"ELAPSED", 0xBF00000000, 0x0B00000000⟩]

/-- The mnemonic of an operation (R84). -/
def Instr.mnemonic : Instr → String
  | .push _ => "PUSH"
  | .pop => "POP"
  | .avail _ => "AVAIL"
  | .flush => "FLUSH"
  | .rdovr _ => "RDOVR"
  | .rdtot _ => "RDTOT"
  | .tick => "TICK"
  | .now _ => "NOW"
  | .delay _ => "DELAY"
  | .elapsed _ _ => "ELAPSED"

/-- The status byte (R87). -/
def Status.code : Status → BitVec 8
  | .ok => 0x00
  | .full => 0x01
  | .empty => 0x02
  | .illegal => 0xFF

/-- The response word: `status` in 39:32, `value` in 31:0 (R86). -/
def Response.word (r : Response) : RspWord := r.status.code ++ r.value

/-- The command word that a table row's bits are: the table numbers the 40 bits as R81 does (log entry 25). Bits above
`nbits` are zero; a number with a bit above bit 39 is no command word. -/
def tableWord (nbits w : Nat) : Option CmdWord :=
  if w % 2 ^ nbits < 2 ^ 40 then some (BitVec.ofNat 40 (w % 2 ^ nbits)) else none

/-- The operation the decoder reads from a word of the opcode table. -/
def decodeTableWord (nbits w : Nat) : Option Instr :=
  match tableWord nbits w with
  | none => none
  | some cmd =>
    match decode cmd with
    | .ok i => some i
    | .error _ => none

end Sys2Proof
end

