-- ==== Sys2Proof/Config.lean ====
section
/-! DEFINITION. What is fixed when the block is constructed: the parameters of `spec/00_scope.md` R6. They are held in
State (field `cfg`), so that a statement about every state is a statement about every legal value of each parameter
(U2). An illegal `CAPACITY`, `TICK_W` or `CNT_W` cannot be written down (R7, R212). The spec leaves no result of an
operation open, so there is no free value here. -/

namespace Sys2Proof

/-- `ECHO_POLICY`: what ConsoleSession does with a byte outside `CMD_SET` (R163, U8). -/
inductive EchoPolicy where
  | echo
  | ignore
deriving DecidableEq, Repr

/-- The parameters of the block and of the reference consumer program (R6). -/
structure Config where
  /-- `k - 1`, where `CAPACITY = 2^k` and `1 <= k <= 31` (R7). -/
  capExpPred : Fin 31
  /-- `TICK_W - 1`, where `1 <= TICK_W <= 32` (R6). -/
  tickWPred : Fin 32
  /-- `CNT_W - 1`, where `1 <= CNT_W <= 32` (R6). -/
  cntWPred : Fin 32
  /-- `TICK_INIT`, the value of `ticks` after reset (R6, R36). -/
  tickInit : Word
  /-- `TICK_PERIOD` in nanoseconds; it enters no rule (R226, U1). -/
  tickPeriodNs : Nat
  /-- `REPORT_INTERVAL_TICKS` (R162, U10). -/
  reportInterval : Word
  /-- `CMD_STATUS`, the command byte that asks for a report (R163, U9). -/
  cmdStatus : Byte
  /-- `CMD_FLUSH`, the command byte that flushes the buffer (R163, U9). -/
  cmdFlush : Byte
  /-- `ECHO_POLICY` (R163, U8). -/
  echoPolicy : EchoPolicy
deriving DecidableEq, Repr

namespace Config

/-- `IDX_W = log2(CAPACITY) = k` (R6). -/
def idxW (c : Config) : Nat := c.capExpPred.val + 1

/-- `CAPACITY`, the number of slots of `storage` (R7, R21). -/
def capacity (c : Config) : Nat := 2 ^ c.idxW

/-- `TICK_W` (R6). -/
def tickW (c : Config) : Nat := c.tickWPred.val + 1

/-- `CNT_W` (R6). -/
def cntW (c : Config) : Nat := c.cntWPred.val + 1

/-- The constraints of R6 that the types do not already carry: `TICK_INIT` and `REPORT_INTERVAL_TICKS` are values of
`TICK_W` bits, the two command bytes are distinct, and the tick period is positive. -/
def legal (c : Config) : Bool :=
  fits c.tickW c.tickInit && fits c.tickW c.reportInterval && decide (c.cmdStatus ≠ c.cmdFlush) &&
    decide (0 < c.tickPeriodNs)

/-- The parameters of `State.reset`. DESIGN CHOICE, log entry 1 (unsafe): the widths and `TICK_INIT` are the spec's
defaults (R6); `CAPACITY = 8` is a capacity of the source's examples, and the console values are those of program G8 of
`spec/95_test_vectors.md`. The spec leaves them open and no claim may rest on them. -/
def example8 : Config where
  capExpPred := 2
  tickWPred := 31
  cntWPred := 31
  tickInit := 0
  tickPeriodNs := 1000000
  reportInterval := 1000
  cmdStatus := 0x53
  cmdFlush := 0x46
  echoPolicy := .ignore

end Config

end Sys2Proof
end

