-- ==== Sys2Proof/Machine/State.lean ====
section
/-! DEFINITION. The state of the machine: the block of `spec/10_state.md` R20, the reference consumer program of R39,
and what R20 calls parameters of the step relation (command streams and schedule), which this model holds as lists so
that one step is a function of the state (log entry 2). Reset is R36. -/

namespace Sys2Proof.Machine

/-- Why the MODEL stops. The block itself has no fault (R180); no run from a constructed block reaches one of these. -/
inductive Fault where
  /-- Raised by the read of a slot that no PUSH has written since reset (R22, U3: "reading one is a fault of the
  model"). Safe: no value is made up. -/
  | slotUnwritten (index : Word)
  /-- Raised by an access to an index outside `[0, CAPACITY - 1]`, where there is no slot (R51, U18: a model "need give no
  behaviour to a state outside it"). Safe: no effect is made up. -/
  | noSuchSlot (index : Word)
deriving DecidableEq, Repr

/-- Why an instruction has no meaning in the model. -/
inductive Refusal where
  /-- Raised by an arm of `exec` for an instruction that has no meaning yet. Safe. No arm raises it in this model. -/
  | notModelled (mnemonic : String)
deriving DecidableEq, Repr

/-- What a step of this machine answers. -/
abbrev Outcome := Host.Outcome

/-- The consumer sequencer with its latches (R32, R33). The constructor is the pair `(C.op, C.step)`: it names the
operation in flight and the micro-step that executes next. Its arguments are the latches that hold a value at that
point, so that an unwritten latch has no value (R33, U16; log entry 5). The operand of a command that has been accepted
and has not run its first micro-step is still the port's (R80). -/
inductive Seq where
  /-- `C.op = idle`: port C is ready for a command. -/
  | idle
  /-- POP, next c1. -/
  | popC1
  /-- POP, next c2; `C.h`. -/
  | popC2 (h : Word)
  /-- POP, next c3; `C.h`, `C.t`. -/
  | popC3 (h t : Word)
  /-- POP, next c4; `C.h`, `C.t`, `C.b`. -/
  | popC4 (h t : Word) (b : Byte)
  /-- AVAIL, next a1. -/
  | availA1
  /-- AVAIL, next a2; `C.h`. -/
  | availA2 (h : Word)
  /-- FLUSH, next f1. -/
  | flushF1
  /-- FLUSH, next f2; `C.h`. -/
  | flushF2 (h : Word)
  /-- RDOVR, next r1. -/
  | rdovrR1
  /-- RDTOT, next t1. -/
  | rdtotT1
  /-- NOW, next n1. -/
  | nowN1
  /-- DELAY, next d1; the operand the port holds. -/
  | delayD1 (imm32 : Word)
  /-- DELAY, next d2; `C.arg`, `C.start`, and `C.now` once a poll has written it. -/
  | delayD2 (arg start : Word) (now : Option Word)
  /-- ELAPSED, next e1; the operand the port holds. -/
  | elapsedE1 (imm32 : Word)
deriving DecidableEq, Repr

/-- `sessionState` of the reference consumer program (R165). -/
inductive SessionState where
  | idle
  | awaitingCommandEcho
deriving DecidableEq, Repr

/-- Why ConsoleSession is taking the three telemetry readings: the status command was dispatched (R163), or the report
interval has passed and ELAPSED answered `e` (R162). -/
inductive ReportKind where
  | onCommand
  | periodic (e : Word)
deriving DecidableEq, Repr

/-- Where the consumer's software stands: at rest, inside a DRAIN, or inside a POLL, waiting for the response to the
command it issued last and holding what it has read so far (R94, R162). -/
inductive ProgPos where
  /-- Neither DRAIN nor POLL is running. -/
  | rest
  /-- DRAIN waits for a POP; the bytes drained so far, oldest first. -/
  | drainPop (bytes : List Byte)
  /-- POLL waits for the POP of q1. -/
  | pollPop
  /-- POLL waits for the FLUSH of `dispatch(CMD_FLUSH)`. -/
  | pollFlush
  /-- POLL waits for the ELAPSED of q2. -/
  | pollElapsed
  /-- POLL waits for the AVAIL of q3. -/
  | pollAvail (why : ReportKind)
  /-- POLL waits for the RDOVR of q4; `a`. -/
  | pollOvr (why : ReportKind) (a : Word)
  /-- POLL waits for the RDTOT of q5; `a`, `o`. -/
  | pollTot (why : ReportKind) (a o : Word)
deriving DecidableEq, Repr

/-- What TextSink receives: an echoed byte, or the abstract record of a report (R163, R164). -/
inductive SinkItem where
  | echoed (b : Byte)
  | telemetry (a o n : Word)
deriving DecidableEq, Repr

/-- What the consumer agent has to do on port C: present one command, or run one of the pseudo-operations (R80, R94). -/
inductive Task where
  | command (x : Request)
  | drain
  | poll
deriving DecidableEq, Repr

/-- The software of context C, outside the block (R39, R161). -/
structure Console where
  /-- Where DRAIN or POLL stands. -/
  prog : ProgPos
  /-- `lastReportTick` (R161). -/
  lastReportTick : Word
  /-- `sessionState` (R165); no rule reads it. -/
  sessionState : SessionState
  /-- The bytes the last DRAIN returned, oldest first (R94). -/
  drained : List Byte
  /-- What TextSink has received, newest first (R164). -/
  sink : List SinkItem
deriving DecidableEq, Repr

/-- The environment's inputs (R186, R188, R189): who takes the next turn, and what each agent has still to issue. -/
structure Env where
  /-- The schedule, next turn first. -/
  sched : List Ctx
  /-- Port C, next task first. -/
  tasks : List Task
  /-- Port P, next command first. -/
  reqP : List Request
  /-- Port T, next command first. -/
  reqT : List Request
deriving DecidableEq, Repr

/-- What each response port has carried, newest first (R80, R86). -/
structure Responses where
  c : List Response
  p : List Response
  t : List Response
deriving DecidableEq, Repr

/-- The state. `cfg` to `seq` are the block (R20); `con` is the reference consumer program (R39); `env` and `rsp` are the
model's own record of the ports and the schedule (log entries 2 and 9). -/
structure State where
  /-- S0 `CAPACITY` and the other parameters, fixed at construction (R21). -/
  cfg : Config
  /-- S1 `storage`: (slot index, byte), indexes strictly rising; a slot that is not listed has no value (R22). -/
  storage : List Host.Cell
  /-- S2 `head` (R23). -/
  head : Word
  /-- S3 `tail` (R24). -/
  tail : Word
  /-- S4 `overrunCount` (R25). -/
  overrunCount : Word
  /-- S5 `totalReceivedCount` (R26). -/
  totalReceivedCount : Word
  /-- S6 `ticks` (R29). -/
  ticks : Word
  /-- The consumer sequencer and its latches (R32, R33). -/
  seq : Seq
  /-- ConsoleSession and the pseudo-operations. -/
  con : Console
  /-- Command streams and schedule. -/
  env : Env
  /-- The response ports. -/
  rsp : Responses
deriving DecidableEq, Repr

/-- The software of context C before it has run (R161; `prog`, `drained` and `sink` are DESIGN CHOICE, log entry 19). -/
def Console.initial : Console := ⟨.rest, 0, .idle, [], []⟩

/-- No command and no turn (DESIGN CHOICE, log entry 2). -/
def Env.empty : Env := ⟨[], [], [], []⟩

/-- No response yet (DESIGN CHOICE, log entry 9). -/
def Responses.none : Responses := ⟨[], [], []⟩

/-- The state right after reset of a block constructed with the parameters `cfg` (R36, R210). -/
def State.construct (cfg : Config) : State where
  cfg := cfg
  storage := []
  head := 0
  tail := 0
  overrunCount := 0
  totalReceivedCount := 0
  ticks := cfg.tickInit
  seq := .idle
  con := Console.initial
  env := Env.empty
  rsp := Responses.none

/-- The state right after reset, for the example parameters (log entry 1). Nothing is presented to any port. -/
def State.reset : State := State.construct Config.example8

end Sys2Proof.Machine
end

