-- ==== Sys2Proof/Machine/Operands.lean ====
section
/-! DEFINITION. The arithmetic of the block (`spec/00_scope.md` R10, `spec/41_ringbuffer.md` R110 to R113,
`spec/42_tickclock.md` R140), the parameters as the rules name them, and the sequencer read as the spec reads it: the
operation in flight, the label of the next micro-step, and each latch by name (`spec/10_state.md` R32, R33). -/

namespace Sys2Proof.Machine

/-- The word whose low `n` bits are ones. -/
def lowMask (n : Nat) : Word := BitVec.ofNat 32 (2 ^ n - 1)

/-- `a +_N b` (R10). -/
def addN (n : Nat) (a b : Word) : Word := (a + b) &&& lowMask n

/-- `a -_N b` (R10). -/
def subN (n : Nat) (a b : Word) : Word := (a - b) &&& lowMask n

/-- `satinc_N(a)` (R10, R112). -/
def satIncN (n : Nat) (a : Word) : Word := if a.toNat < 2 ^ n - 1 then a + 1 else a

/-- `MASK = CAPACITY - 1` (R6). -/
def State.mask (s : State) : Word := lowMask s.cfg.idxW

/-- The successor of a cursor, `(x + 1) & MASK` (R110). -/
def cursorSucc (mask x : Word) : Word := (x + 1) &&& mask

/-- The difference of two cursors, `(head -_WORD_W tail) & MASK` (R111). -/
def cursorDiff (mask head tail : Word) : Word := (head - tail) &&& mask

/-- `a >=u b` (R10). -/
def geU (a b : Word) : Bool := decide (b.toNat ≤ a.toNat)

/-- The labels of the consumer's micro-steps (R115 to R119, R142 to R144). -/
inductive MicroStep where
  | c1 | c2 | c3 | c4
  | a1 | a2
  | f1 | f2
  | r1
  | t1
  | n1
  | d1 | d2
  | e1
deriving DecidableEq, Repr

/-- The command in flight in context C, `none` when `C.op = idle` (R32). -/
def Seq.instr : Seq → Option Instr
  | .idle => none
  | .popC1 | .popC2 _ | .popC3 _ _ | .popC4 _ _ _ => some .pop
  | .availA1 | .availA2 _ => some (.avail .c)
  | .flushF1 | .flushF2 _ => some .flush
  | .rdovrR1 => some (.rdovr .c)
  | .rdtotT1 => some (.rdtot .c)
  | .nowN1 => some (.now .c)
  | .delayD1 imm32 => some (.delay imm32)
  | .delayD2 arg _ _ => some (.delay arg)
  | .elapsedE1 imm32 => some (.elapsed .c imm32)

/-- `C.step`, the label of the micro-step that executes next (R32). -/
def Seq.label : Seq → Option MicroStep
  | .idle => none
  | .popC1 => some .c1
  | .popC2 _ => some .c2
  | .popC3 _ _ => some .c3
  | .popC4 _ _ _ => some .c4
  | .availA1 => some .a1
  | .availA2 _ => some .a2
  | .flushF1 => some .f1
  | .flushF2 _ => some .f2
  | .rdovrR1 => some .r1
  | .rdtotT1 => some .t1
  | .nowN1 => some .n1
  | .delayD1 _ => some .d1
  | .delayD2 _ _ _ => some .d2
  | .elapsedE1 _ => some .e1

/-- The latch `C.h` (R33). -/
def Seq.latchH : Seq → Option Word
  | .popC2 h | .popC3 h _ | .popC4 h _ _ | .availA2 h | .flushF2 h => some h
  | _ => none

/-- The latch `C.t` (R33). -/
def Seq.latchT : Seq → Option Word
  | .popC3 _ t | .popC4 _ t _ => some t
  | _ => none

/-- The latch `C.b` (R33). -/
def Seq.latchB : Seq → Option Byte
  | .popC4 _ _ b => some b
  | _ => none

/-- The latch `C.start` (R33). -/
def Seq.latchStart : Seq → Option Word
  | .delayD2 _ start _ => some start
  | _ => none

/-- The latch `C.now` (R33). -/
def Seq.latchNow : Seq → Option Word
  | .delayD2 _ _ now => now
  | _ => none

/-- The latch `C.arg` (R33). -/
def Seq.latchArg : Seq → Option Word
  | .delayD2 arg _ _ => some arg
  | _ => none

end Sys2Proof.Machine
end

