-- ==== Sys2Proof/Machine/Flags.lean ====
section
/-! DEFINITION. The three derived conditions of `spec/10_state.md` R28. The block has no flags register: each condition is
computed from cursor values when an operation needs it, and none is stored. -/

namespace Sys2Proof.Machine

/-- `empty`: `head == tail` (R28). POP evaluates it with its snapshot of `head`. -/
def isEmpty (head tail : Word) : Bool := head == tail

/-- `full`: `(head + 1) mod CAPACITY == tail` (R28). PUSH evaluates it. -/
def isFull (mask head tail : Word) : Bool := cursorSucc mask head == tail

/-- `available`: the number of bytes held (R28, R111). -/
def available (mask head tail : Word) : Word := cursorDiff mask head tail

/-- The number of bytes the buffer holds in state `s`. -/
def State.available (s : State) : Word := Machine.available s.mask s.head s.tail

end Sys2Proof.Machine
end

