-- ==== Sys2Proof/Machine/Ops.lean ====
section
/-! DEFINITION. The named operations over the state: one update for each field an operation writes, the access to
`storage` (`spec/20_memory.md` R50 to R53), the response that ends an operation (`spec/00_scope.md` R11), and what stands
in the place of taking an exception and returning from one: `raise Illegal` (R11, R183) and the acceptance of a command
by an idle port C (`spec/60_exceptions.md` R188, R192). -/

namespace Sys2Proof.Machine

/-- What the list holds at an index; a slot that is not listed has no value (R22). -/
def Memory.read : List Host.Cell → Nat → Option Byte
  | [], _ => none
  | (k, v) :: rest, i => if k = i then some v else Memory.read rest i

/-- The list with the byte `v` at index `i`, every other index as before; the indexes keep rising (R52). -/
def Memory.write : List Host.Cell → Nat → Byte → List Host.Cell
  | [], i, v => [(i, v)]
  | (k, u) :: rest, i, v =>
    if i < k then (i, v) :: (k, u) :: rest
    else if i = k then (i, v) :: rest
    else (k, u) :: Memory.write rest i v

/-- The indexes of `m` rise strictly from a lower bound on. -/
def Memory.risesFrom : Nat → List Host.Cell → Bool
  | _, [] => true
  | low, (k, _) :: rest => decide (low ≤ k) && Memory.risesFrom (k + 1) rest

/-- The canonical form: indexes strictly rising. An unlisted slot has no value, so no listed entry can equal it. -/
def Memory.wf (m : List Host.Cell) : Bool := Memory.risesFrom 0 m

/-- The content of a slot, `none` while no PUSH has written it (R22). -/
def State.slot (s : State) (i : Word) : Option Byte := Memory.read s.storage i.toNat

/-- The index names a slot of the array (R50). -/
def State.hasSlot (s : State) (i : Word) : Bool := decide (i.toNat < s.cfg.capacity)

def State.setStorage (s : State) (m : List Host.Cell) : State := { s with storage := m }

def State.setHead (s : State) (v : Word) : State := { s with head := v }

def State.setTail (s : State) (v : Word) : State := { s with tail := v }

def State.setOverrunCount (s : State) (v : Word) : State := { s with overrunCount := v }

def State.setTotalReceivedCount (s : State) (v : Word) : State := { s with totalReceivedCount := v }

def State.setTicks (s : State) (v : Word) : State := { s with ticks := v }

def State.setSeq (s : State) (q : Seq) : State := { s with seq := q }

def State.setCon (s : State) (k : Console) : State := { s with con := k }

def State.setEnv (s : State) (e : Env) : State := { s with env := e }

def State.setRsp (s : State) (r : Responses) : State := { s with rsp := r }

/-- `MemRead(i, 1)` (R11, R52). -/
def memRead (s : State) (i : Word) : Except Fault Byte :=
  if s.hasSlot i then
    match s.slot i with
    | some b => .ok b
    | none => .error (.slotUnwritten i)
  else .error (.noSuchSlot i)

/-- `MemWrite(i, 1, v)` (R11, R52). -/
def memWrite (s : State) (i : Word) (v : Byte) : Except Fault State :=
  if s.hasSlot i then .ok (s.setStorage (Memory.write s.storage i.toNat v))
  else .error (.noSuchSlot i)

/-- One more response on the port of a context, newest first. -/
def Responses.add (r : Responses) : Ctx → Response → Responses
  | .c, x => { r with c := x :: r.c }
  | .p, x => { r with p := x :: r.p }
  | .t, x => { r with t := x :: r.t }

/-- `respond(status, value)`: the response goes to the port of the agent that issued the command (R11, R86). -/
def State.respond (s : State) (port : Ctx) (r : Response) : State := s.setRsp (s.rsp.add port r)

/-- The response (OK, value). -/
def okValue (v : Word) : Response := ⟨.ok, v⟩

/-- The response (OK, 0) of an operation that returns nothing (R88). -/
def okDone : Response := ⟨.ok, 0⟩

/-- The response (FULL, 0) (R87). -/
def fullRsp : Response := ⟨.full, 0⟩

/-- The response (EMPTY, 0) (R87). -/
def emptyRsp : Response := ⟨.empty, 0⟩

/-- The response (ILLEGAL, 0) (R87, R89). -/
def illegalRsp : Response := ⟨.illegal, 0⟩

/-- `raise Illegal`: `respond(ILLEGAL, 0)` with no state written, the only exception the block has (R11, R183). -/
def raiseIllegal (port : Ctx) (s : State) : State := s.respond port illegalRsp

/-- The acceptance of a command by the idle port C: the operation is in flight and its first micro-step is next (R188). -/
def accept (first : Seq) (s : State) : Outcome State Fault Refusal := .next (s.setSeq first)

/-- A micro-step of context C that goes on to another one. -/
def continueAt (q : Seq) (s : State) : Outcome State Fault Refusal := .next (s.setSeq q)

/-- The last micro-step of an operation of context C: it responds, its latches lose their values and the port is ready
again (R32, R33). -/
def finish (r : Response) (s : State) : Outcome State Fault Refusal := .next ((s.setSeq .idle).respond .c r)

/-- Port C accepts a command only when `C.op = idle` (R32): a command given to it while another is in flight is not
accepted and nothing changes (DEDUCED, log entry 4). No step of the machine reaches this. -/
def portBusy (s : State) : Outcome State Fault Refusal := .next s

end Sys2Proof.Machine
end

