-- ==== Sys2Proof/Machine/Console.lean ====
section
/-! DEFINITION. The software of context C, outside the block: the reference consumer program ConsoleSession with its
pseudo-operation POLL (`spec/43_console_session.md` R160 to R166), and the pseudo-operations DRAIN and PUSHN
(`spec/30_encoding.md` R94). It acts on the block only by issuing commands. A reaction to a response and the issue of
the next command are one local computation of context C (log entry 14). -/

namespace Sys2Proof.Machine

/-- What the software does next: the state it leaves and the command it issues, if any. -/
abbrev Reaction := State × Option Instr

def State.setProg (s : State) (p : ProgPos) : State := s.setCon { s.con with prog := p }

def State.setSession (s : State) (v : SessionState) : State := s.setCon { s.con with sessionState := v }

def State.setLastReportTick (s : State) (v : Word) : State := s.setCon { s.con with lastReportTick := v }

/-- One more item for TextSink, newest first (R164; log entry 17). -/
def State.emit (s : State) (x : SinkItem) : State := s.setCon { s.con with sink := x :: s.con.sink }

/-- The result of a DRAIN, and the software at rest (R94). -/
def State.setDrained (s : State) (bytes : List Byte) : State := s.setCon { s.con with drained := bytes, prog := .rest }

/-- The byte of a POP response: `value[7:0]` (R88). -/
def popByte (r : Response) : Byte := r.value.setWidth 8

/-- The command issued next, the software waiting at `p`. -/
def thenIssue (p : ProgPos) (i : Instr) (s : State) : Reaction := (s.setProg p, some i)

/-- q2: ELAPSED of `lastReportTick` (R162). -/
def askElapsed (s : State) : Reaction := thenIssue .pollElapsed (.elapsed .c s.con.lastReportTick) s

/-- q3: the first of the three telemetry readings (R162, R163). -/
def askReport (why : ReportKind) (s : State) : Reaction := thenIssue (.pollAvail why) (.avail .c) s

/-- `ECHO_POLICY` applied to a byte outside `CMD_SET` (R163). -/
def applyEchoPolicy (b : Byte) (s : State) : State :=
  match s.cfg.echoPolicy with
  | .echo => s.emit (.echoed b)
  | .ignore => s

/-- The rest of q1, for the byte a POP returned (R162, R163, R165). `CMD_SET` has the two members the spec names
(DEDUCED, log entry 15). -/
def dispatchByte (b : Byte) (s : State) : Reaction :=
  if b = s.cfg.cmdStatus then askReport .onCommand (s.setSession .awaitingCommandEcho)
  else if b = s.cfg.cmdFlush then thenIssue .pollFlush .flush (s.setSession .awaitingCommandEcho)
  else askElapsed (applyEchoPolicy b (s.setSession .idle))

/-- q6 and what follows it: the report is emitted; a periodic report then updates `lastReportTick` and ends POLL (q7), and
the report of a command goes on to q2 (R162, R163). -/
def report (why : ReportKind) (a o n : Word) (s : State) : Reaction :=
  match why with
  | .onCommand => askElapsed (s.emit (.telemetry a o n))
  | .periodic e =>
    (((s.emit (.telemetry a o n)).setLastReportTick (addN s.cfg.tickW s.con.lastReportTick e)).setProg .rest, none)

/-- The software at `p` takes the response `r` to the command it issued last (R94, R162). -/
def progStep (p : ProgPos) (r : Response) (s : State) : Reaction :=
  match p with
  | .rest => (s, none)
  | .drainPop bytes =>
    if r.status = .ok then thenIssue (.drainPop (bytes ++ [popByte r])) .pop s
    else (s.setDrained bytes, none)
  | .pollPop =>
    if r.status = .ok then dispatchByte (popByte r) s
    else askElapsed (s.setSession .idle)
  | .pollFlush => askElapsed s
  | .pollElapsed =>
    if geU r.value s.cfg.reportInterval then askReport (.periodic r.value) s
    else (s.setProg .rest, none)
  | .pollAvail why => thenIssue (.pollOvr why r.value) (.rdovr .c) s
  | .pollOvr why a => thenIssue (.pollTot why a r.value) (.rdtot .c) s
  | .pollTot why a o => report why a o r.value s

/-- PUSHN: the PUSH commands of a burst, in arrival order (R94, R194). -/
def pushN (bytes : List Byte) : List Request := bytes.map fun b => (Instr.push b).request

end Sys2Proof.Machine
end

