-- ==== Sys2Proof/Machine/RingBuffer.lean ====
section
/-! DEFINITION. The meanings of PUSH, POP, AVAIL, FLUSH, RDOVR and RDTOT (`spec/41_ringbuffer.md` R114 to R119). An
operation of context P is one atomic transition. An operation of context C is a sequence of micro-steps: its meaning
accepts the command when the port is idle, and otherwise performs the micro-step that is next. -/

namespace Sys2Proof.Machine

/-- PUSH (R114): p1 to p6 with nothing between them. -/
def execPush (imm8 : Byte) (s : State) : Outcome State Fault Refusal :=
  let h := s.head
  let nh := cursorSucc s.mask h
  let t := s.tail
  let total := addN s.cfg.cntW s.totalReceivedCount 1
  if nh = t then
    .next (((s.setOverrunCount (satIncN s.cfg.cntW s.overrunCount)).setTotalReceivedCount total).respond .p fullRsp)
  else
    match memWrite s h imm8 with
    | .error f => .fault f
    | .ok s1 => .next (((s1.setHead nh).setTotalReceivedCount total).respond .p okDone)

/-- POP.c1 (R115): the snapshot of `head`. -/
def popC1 (s : State) : Outcome State Fault Refusal := continueAt (.popC2 s.head) s

/-- POP.c2 (R115): the copy of `tail` and the test for empty. -/
def popC2 (h : Word) (s : State) : Outcome State Fault Refusal :=
  if isEmpty h s.tail then finish emptyRsp s else continueAt (.popC3 h s.tail) s

/-- POP.c3 (R115): the read of the slot. -/
def popC3 (h t : Word) (s : State) : Outcome State Fault Refusal :=
  match memRead s t with
  | .error f => .fault f
  | .ok b => continueAt (.popC4 h t b) s

/-- POP.c4 (R115): the new `tail`, and the byte zero-extended into the response. -/
def popC4 (t : Word) (b : Byte) (s : State) : Outcome State Fault Refusal :=
  finish (okValue (b.setWidth 32)) (s.setTail (cursorSucc s.mask t))

/-- POP (R115). -/
def execPop (s : State) : Outcome State Fault Refusal :=
  match s.seq with
  | .idle => accept .popC1 s
  | .popC1 => popC1 s
  | .popC2 h => popC2 h s
  | .popC3 h t => popC3 h t s
  | .popC4 _ t b => popC4 t b s
  | _ => portBusy s

/-- AVAIL (R116): two micro-steps in context C, one atomic step with local latches in context P. -/
def execAvail (q : QueryCtx) (s : State) : Outcome State Fault Refusal :=
  match q with
  | .p => .next (s.respond .p (okValue (available s.mask s.head s.tail)))
  | .c =>
    match s.seq with
    | .idle => accept .availA1 s
    | .availA1 => continueAt (.availA2 s.head) s
    | .availA2 h => finish (okValue (available s.mask h s.tail)) s
    | _ => portBusy s

/-- FLUSH (R117). -/
def execFlush (s : State) : Outcome State Fault Refusal :=
  match s.seq with
  | .idle => accept .flushF1 s
  | .flushF1 => continueAt (.flushF2 s.head) s
  | .flushF2 h => finish okDone (s.setTail h)
  | _ => portBusy s

/-- RDOVR (R118). -/
def execRdovr (q : QueryCtx) (s : State) : Outcome State Fault Refusal :=
  match q with
  | .p => .next (s.respond .p (okValue s.overrunCount))
  | .c =>
    match s.seq with
    | .idle => accept .rdovrR1 s
    | .rdovrR1 => finish (okValue s.overrunCount) s
    | _ => portBusy s

/-- RDTOT (R119). -/
def execRdtot (q : QueryCtx) (s : State) : Outcome State Fault Refusal :=
  match q with
  | .p => .next (s.respond .p (okValue s.totalReceivedCount))
  | .c =>
    match s.seq with
    | .idle => accept .rdtotT1 s
    | .rdtotT1 => finish (okValue s.totalReceivedCount) s
    | _ => portBusy s

end Sys2Proof.Machine
end

