-- ==== Sys2Proof/Machine/TickClock.lean ====
section
/-! DEFINITION. The meanings of TICK, NOW, DELAY and ELAPSED (`spec/42_tickclock.md` R141 to R144). -/

namespace Sys2Proof.Machine

/-- TICK (R141): one atomic step of context T. -/
def execTick (s : State) : Outcome State Fault Refusal :=
  .next ((s.setTicks (addN s.cfg.tickW s.ticks 1)).respond .t okDone)

/-- NOW (R142). -/
def execNow (q : QueryCtx) (s : State) : Outcome State Fault Refusal :=
  match q with
  | .p => .next (s.respond .p (okValue s.ticks))
  | .c =>
    match s.seq with
    | .idle => accept .nowN1 s
    | .nowN1 => finish (okValue s.ticks) s
    | _ => portBusy s

/-- DELAY.d1 (R143): `C.arg` and the start snapshot. -/
def delayD1 (imm32 : Word) (s : State) : Outcome State Fault Refusal :=
  continueAt (.delayD2 imm32 s.ticks none) s

/-- DELAY.d2 (R143): one poll; it responds once the difference has reached `C.arg`, and is next again otherwise. -/
def delayD2 (arg start : Word) (s : State) : Outcome State Fault Refusal :=
  if geU (subN s.cfg.tickW s.ticks start) arg then finish okDone s
  else continueAt (.delayD2 arg start (some s.ticks)) s

/-- DELAY (R143). The operand of the DELAY in flight is the port's until d1 and `C.arg` after it; another DELAY is
another command, which the busy port does not accept. -/
def execDelay (imm32 : Word) (s : State) : Outcome State Fault Refusal :=
  match s.seq with
  | .idle => accept (.delayD1 imm32) s
  | .delayD1 n => if n = imm32 then delayD1 n s else portBusy s
  | .delayD2 arg start _ => if arg = imm32 then delayD2 arg start s else portBusy s
  | _ => portBusy s

/-- ELAPSED (R144): the operand is used in the micro-step that takes it. -/
def execElapsed (q : QueryCtx) (imm32 : Word) (s : State) : Outcome State Fault Refusal :=
  match q with
  | .p => .next (s.respond .p (okValue (subN s.cfg.tickW s.ticks imm32)))
  | .c =>
    match s.seq with
    | .idle => accept (.elapsedE1 imm32) s
    | .elapsedE1 n => if n = imm32 then finish (okValue (subN s.cfg.tickW s.ticks n)) s else portBusy s
    | _ => portBusy s

end Sys2Proof.Machine
end

