-- ==== Sys2Proof/Machine/Dispatch.lean ====
section
/-! DEFINITION. One arm for each operation of the opcode table (`spec/30_encoding.md` R84). -/

namespace Sys2Proof.Machine

def exec (i : Instr) (s : State) : Host.Outcome State Fault Refusal :=
  match i with
  | .push imm8 => Sys2Proof.Machine.execPush imm8 s
  | .pop => Sys2Proof.Machine.execPop s
  | .avail q => Sys2Proof.Machine.execAvail q s
  | .flush => Sys2Proof.Machine.execFlush s
  | .rdovr q => Sys2Proof.Machine.execRdovr q s
  | .rdtot q => Sys2Proof.Machine.execRdtot q s
  | .tick => Sys2Proof.Machine.execTick s
  | .now q => Sys2Proof.Machine.execNow q s
  | .delay imm32 => Sys2Proof.Machine.execDelay imm32 s
  | .elapsed q imm32 => Sys2Proof.Machine.execElapsed q imm32 s

end Sys2Proof.Machine
end

