-- ==== Sys2Proof/Machine/Agents.lean ====
section
/-! DEFINITION. The three agents, their ports and the schedule (`spec/30_encoding.md` R80, R82;
`spec/60_exceptions.md` R188 to R194). A turn of context C is one micro-step of the operation in flight, or, when
`C.op = idle`, the acceptance of the next command; a turn of context P or T is one whole command. -/

namespace Sys2Proof.Machine

def State.setSched (s : State) (l : List Ctx) : State := s.setEnv { s.env with sched := l }

def State.setTasks (s : State) (l : List Task) : State := s.setEnv { s.env with tasks := l }

def State.setReqP (s : State) (l : List Request) : State := s.setEnv { s.env with reqP := l }

def State.setReqT (s : State) (l : List Request) : State := s.setEnv { s.env with reqT := l }

/-- An agent presents `x` on the port of its context: the port drives `ctx`, the word is decoded, and the operation
is performed; a word that is no legal command is answered ILLEGAL (R82, R89, R92, R183). -/
def present (port : Ctx) (x : Request) (s : State) : Outcome State Fault Refusal :=
  match decodeFor s.cfg.tickW (port.drive x) with
  | .error _ => .next (raiseIllegal port s)
  | .ok i => exec i s

/-- The software of context C runs on to the next command it issues, or to its end. -/
def react (x : Reaction) : Outcome State Fault Refusal :=
  match x.2 with
  | none => .next x.1
  | some i => present .c i.request x.1

/-- The next thing the consumer's software does while port C is idle. -/
def consumerIdleTurn (s : State) : Outcome State Fault Refusal :=
  match s.con.prog with
  | .rest =>
    match s.env.tasks with
    | [] => .next s
    | .command x :: ts => present .c x (s.setTasks ts)
    | .drain :: ts => react (thenIssue (.drainPop []) .pop (s.setTasks ts))
    | .poll :: ts => react (thenIssue .pollPop .pop (s.setTasks ts))
  | p =>
    match s.rsp.c with
    | [] => .next s
    | r :: _ => react (progStep p r s)

/-- A turn of context C (R188 (a)). -/
def consumerTurn (s : State) : Outcome State Fault Refusal :=
  match s.seq.instr with
  | some i => exec i s
  | none => consumerIdleTurn s

/-- A turn of context P (R188 (b)). -/
def producerTurn (s : State) : Outcome State Fault Refusal :=
  match s.env.reqP with
  | [] => .next s
  | x :: xs => present .p x (s.setReqP xs)

/-- A turn of context T (R188 (c)). -/
def timerTurn (s : State) : Outcome State Fault Refusal :=
  match s.env.reqT with
  | [] => .next s
  | x :: xs => present .t x (s.setReqT xs)

/-- A turn of the given context; an agent with nothing to do lets it pass and nothing changes (R188). -/
def turn (who : Ctx) (s : State) : Outcome State Fault Refusal :=
  match who with
  | .c => consumerTurn s
  | .p => producerTurn s
  | .t => timerTurn s

/-- The next turn of the schedule. With no turn scheduled nothing changes: "No step is enabled for the block on its own"
(R188; log entry 2). -/
def scheduledTurn (s : State) : Outcome State Fault Refusal :=
  match s.env.sched with
  | [] => .next s
  | who :: later => turn who (s.setSched later)

/-- The state with `x` at the front of the given port and the next turn given to its context. On port C this takes an
idle port and software at rest, or the next turn would go to what is in flight there. -/
def State.presentNext (s : State) (port : Ctx) (x : Request) : State :=
  match port with
  | .c => (((s.setSeq .idle).setProg .rest).setTasks (.command x :: s.env.tasks)).setSched (.c :: s.env.sched)
  | .p => (s.setReqP (x :: s.env.reqP)).setSched (.p :: s.env.sched)
  | .t => (s.setReqT (x :: s.env.reqT)).setSched (.t :: s.env.sched)

/-- The state in which the next step takes the command word `w` from the port that drives its `ctx` bits. No port drives
`ctx = 11` (R82): such a word cannot be presented and the state stays as it is (log entry 10). -/
def State.withCommandWord (s : State) (w : CmdWord) : State :=
  match Ctx.ofCode w.ctx with
  | none => s
  | some port => s.presentNext port (w.extractLsb' 0 38)

end Sys2Proof.Machine
end

