-- ==== Sys2Proof/Machine/Step.lean ====
section
/-! DEFINITION. One step of the machine: the next turn of the schedule (`spec/60_exceptions.md` R188), and how a command
word of the opcode table is placed so that the next step performs it (log entry 18). -/

namespace Sys2Proof.Machine

/-- One step (R188). -/
def step (s : State) : Host.Outcome State Fault Refusal := scheduledTurn s

/-- `s` with the word of the opcode table presented on the port of its context and that context's turn next. -/
def State.withFetchWord (s : State) (nbits w : Nat) : State :=
  match tableWord nbits w with
  | none => s
  | some cmd => s.withCommandWord cmd

end Sys2Proof.Machine
end

