-- ==== Sys2Proof/Safety.lean ====
section
/-! DEFINITION. The terms in which claims are made: runs, the bytes the buffer holds, and the invariant of
`spec/10_state.md` R37 with the ranges of R20 and the staleness of R38. -/

namespace Sys2Proof.Machine

/-- `k` steps, stopping at the first fault or refusal. -/
def run (k : Nat) (s : State) : Host.Outcome State Fault Refusal := Host.Core.run Sys2Proof.core k s

/-- The outcome is a next state, and that state has the property. -/
def Ends (o : Host.Outcome State Fault Refusal) (post : State → Prop) : Prop := ∃ t, o = .next t ∧ post t

/-- No turn of context C in a stretch of the schedule. -/
def onlyInterrupts (l : List Ctx) : Bool := l.all fun who => who != .c

/-- The index of the `j`-th byte held, counted from the oldest: `(tail + j) & MASK` (R37 (c)). -/
def State.heldIndex (s : State) (j : Nat) : Word := (s.tail + BitVec.ofNat 32 j) &&& s.mask

/-- The bytes the buffer holds, oldest first (R28, R37). -/
def State.contents (s : State) : List Byte :=
  (List.range s.available.toNat).filterMap fun j => s.slot (s.heldIndex j)

/-- A cursor value is in `[0, CAPACITY - 1]` (R20, R51). -/
def State.inRange (s : State) (x : Word) : Bool := decide (x.toNat < s.cfg.capacity)

/-- A snapshot of `head` lies between `tail` and `head`: it may be behind `head` and is never ahead (R38 (a)). -/
def State.snapshotOk (s : State) (h : Word) : Bool :=
  s.inRange h && decide ((cursorDiff s.mask h s.tail).toNat ≤ s.available.toNat)

/-- What the latches of the operation in flight satisfy (R33, R38, R115 corner case (c)). -/
def State.seqOk (s : State) : Bool :=
  match s.seq with
  | .popC2 h | .availA2 h | .flushF2 h => s.snapshotOk h
  | .popC3 h t => s.snapshotOk h && decide (t = s.tail) && decide (h ≠ t)
  | .popC4 h t b => s.snapshotOk h && decide (t = s.tail) && decide (h ≠ t) && decide (s.slot t = some b)
  | .delayD1 n => fits s.cfg.tickW n
  | .delayD2 arg start now =>
    fits s.cfg.tickW arg && fits s.cfg.tickW start && now.all (fits s.cfg.tickW)
  | .elapsedE1 n => fits s.cfg.tickW n
  | .idle | .popC1 | .availA1 | .flushF1 | .rdovrR1 | .rdtotT1 | .nowN1 => true

/-- Every slot that holds a byte has been written (R37 (c)). -/
def State.heldWritten (s : State) : Bool :=
  (List.range s.available.toNat).all fun j => (s.slot (s.heldIndex j)).isSome

/-- Every listed slot is a slot of the array (R50). -/
def State.slotsExist (s : State) : Bool := s.storage.all fun cell => decide (cell.1 < s.cfg.capacity)

/-- The invariant: what holds in every state that a run from a constructed block reaches (R20, R37, R38). -/
structure State.Inv (s : State) : Prop where
  /-- The parameters meet the constraints of R6. -/
  cfgLegal : s.cfg.legal = true
  /-- The list form of storage is canonical. -/
  storageWf : Memory.wf s.storage = true
  /-- Storage holds slots of the array only (R50). -/
  slotsExist : s.slotsExist = true
  /-- R37 (a). -/
  headInRange : s.inRange s.head = true
  /-- R37 (a). -/
  tailInRange : s.inRange s.tail = true
  /-- R25. -/
  overrunFits : fits s.cfg.cntW s.overrunCount = true
  /-- R26. -/
  totalFits : fits s.cfg.cntW s.totalReceivedCount = true
  /-- R29. -/
  ticksFit : fits s.cfg.tickW s.ticks = true
  /-- R37 (c). -/
  heldWritten : s.heldWritten = true
  /-- R33, R38. -/
  seqOk : s.seqOk = true
  /-- R161. -/
  reportTickFits : fits s.cfg.tickW s.con.lastReportTick = true

/-- How many responses of a port are FULL (R182). -/
def fullCount (l : List Response) : Nat := l.countP fun r => r.status == .full

/-- Below its ceiling `overrunCount` is the number of FULL responses given to the producer since reset, and it stays at
the ceiling from then on (R25, R27). -/
def State.OverrunExact (s : State) : Prop :=
  s.overrunCount.toNat = min (fullCount s.rsp.p) (2 ^ s.cfg.cntW - 1)

/-- The bytes of the POP responses in a response list (newest first), oldest first: the values of the OK responses of a
consumer that issues POP only. -/
def poppedBytes (l : List Response) : List Byte :=
  (l.reverse.filter fun r => r.status == .ok).map popByte

/-- The bytes among `bytes` whose PUSH was answered OK, when `l` (newest first) answers the first of them in order. -/
def acceptedBytes (bytes : List Byte) (l : List Response) : List Byte :=
  ((bytes.zip l.reverse).filter fun x => x.2.status == .ok).map Prod.fst

end Sys2Proof.Machine
end

