-- ==== Sys2Proof/Certificates/Slice0/Obligations.lean ====
section
/-! DEFINITION. The statements for the provers, in the order of the spec's files. Each docstring names the rule of the
spec it formalises. -/

open Sys2Proof Sys2Proof.Machine

/-! ### Encoding (`spec/30_encoding.md`) -/

/-- Words written out from the table of R84 and the vectors of `spec/95_test_vectors.md` 2.1 decode as the spec says. -/
def Obligations.SpecWordsDecodeAsTheSpecSays : Prop :=
  decode 0x4100000041 = .ok (.push 0x41) ∧ decode 0x0200000000 = .ok .pop ∧
  decode 0x4300000000 = .ok (.avail .p) ∧ decode 0x0400000000 = .ok .flush ∧
  decode 0x0500000000 = .ok (.rdovr .c) ∧ decode 0x4600000000 = .ok (.rdtot .p) ∧
  decode 0x8800000000 = .ok .tick ∧ decode 0x0900000000 = .ok (.now .c) ∧
  decode 0x0A00000003 = .ok (.delay 3) ∧ decode 0x4BFFFFFFFD = .ok (.elapsed .p 0xFFFFFFFD) ∧
  decode 0xFFFFFFFFFF = .error .reservedCtx ∧ decode 0x0000000000 = .error (.unassignedOpcode 0x00) ∧
  decode 0x0100000041 = .error (.wrongContext .c 0x01) ∧ decode 0x4100000100 = .error (.operandNotZero 0x100)

/-- Decoding the word of a legal command gives the command back, with every operand at every value its format admits
and for every width of the tick counter (R81 to R85, R92). -/
def Obligations.DecodeOfEncodeIsTheCommand : Prop :=
  ∀ (tickW : Nat) (i : Instr), i.wellFormed tickW = true → decodeFor tickW (encode i) = .ok i

/-- A word that decodes is the encoding of the command it decodes to, and that command is legal: every legal request has
exactly one encoding (D22). -/
def Obligations.EncodeOfDecodeIsTheWord : Prop :=
  ∀ (tickW : Nat) (w : CmdWord) (i : Instr), decodeFor tickW w = .ok i → encode i = w ∧ i.wellFormed tickW = true

/-- The decoding algorithm of R92 and the mask and match rows of R84 agree: a word decodes iff some row selects it, the
row is the command's, and no two rows select one word. -/
def Obligations.DecoderAgreesWithTheOpcodeTable : Prop :=
  (∀ w : CmdWord, (∃ i, decode w = .ok i) ↔ ∃ r ∈ opcodeTable, r.selects w = true) ∧
  (∀ (w : CmdWord) (i : Instr), decode w = .ok i → ∀ r ∈ opcodeTable, r.selects w = true → r.mnemonic = i.mnemonic) ∧
  (∀ w : CmdWord, ∀ r ∈ opcodeTable, ∀ r' ∈ opcodeTable, r.selects w = true → r'.selects w = true → r = r')

/-- R89: which words are illegal, clause by clause, and what an illegal command does: it is answered (ILLEGAL, 0) on its
port, writes nothing, and the port has taken it. The last clause of the equivalence is clause (d) for a block with
`TICK_W < 32` (R83). -/
def Obligations.IllegalCommandsAreThoseOfR89AndChangeNothing : Prop :=
  (∀ (tickW : Nat) (w : CmdWord), (∃ e, decodeFor tickW w = .error e) ↔
    (CmdWord.ctx w = 0b11 ∨
     legalContexts (CmdWord.opcode w) = [] ∨
     (∃ port, Ctx.ofCode (CmdWord.ctx w) = some port ∧ port ∉ legalContexts (CmdWord.opcode w)) ∨
     CmdWord.operand w &&& mustBeZero (CmdWord.opcode w) ≠ 0 ∨
     ((CmdWord.opcode w = 0x0A ∨ CmdWord.opcode w = 0x0B) ∧ fits tickW (CmdWord.operand w) = false))) ∧
  (∀ w : CmdWord, (∃ e, decode w = .error e) ↔ ¬ ∃ r ∈ opcodeTable, r.selects w = true) ∧
  (∀ (s : State) (later : List Ctx) (x : Request) (e : Illegal) (xs : List Request),
    s.env.sched = .p :: later → s.env.reqP = x :: xs → decodeFor s.cfg.tickW (Ctx.drive .p x) = .error e →
    step s = .next { s with env := { s.env with sched := later, reqP := xs },
                            rsp := { s.rsp with p := ⟨.illegal, 0⟩ :: s.rsp.p } }) ∧
  (∀ (s : State) (later : List Ctx) (x : Request) (e : Illegal) (xs : List Request),
    s.env.sched = .t :: later → s.env.reqT = x :: xs → decodeFor s.cfg.tickW (Ctx.drive .t x) = .error e →
    step s = .next { s with env := { s.env with sched := later, reqT := xs },
                            rsp := { s.rsp with t := ⟨.illegal, 0⟩ :: s.rsp.t } }) ∧
  (∀ (s : State) (later : List Ctx) (x : Request) (e : Illegal) (ts : List Task),
    s.env.sched = .c :: later → s.seq = .idle → s.con.prog = .rest → s.env.tasks = .command x :: ts →
    decodeFor s.cfg.tickW (Ctx.drive .c x) = .error e →
    step s = .next { s with env := { s.env with sched := later, tasks := ts },
                            rsp := { s.rsp with c := ⟨.illegal, 0⟩ :: s.rsp.c } })

/-- The response word carries the status code in 39:32 and the value in 31:0, and tells any two responses apart (R86,
R87). -/
def Obligations.ResponseWordCarriesStatusAndValue : Prop :=
  (∀ r : Response, (Response.word r).extractLsb' 32 8 = r.status.code ∧ (Response.word r).extractLsb' 0 32 = r.value) ∧
  (∀ r r' : Response, Response.word r = Response.word r' → r = r') ∧
  (Status.code .ok = 0x00 ∧ Status.code .full = 0x01 ∧ Status.code .empty = 0x02 ∧ Status.code .illegal = 0xFF)

/-! ### Arithmetic (`spec/41_ringbuffer.md` 1, `spec/42_tickclock.md` 1) -/

/-- R110: the successor of a cursor, for every capacity. -/
def Obligations.CursorSuccessorIsModuloCapacity : Prop :=
  ∀ (s : State) (x : Word), x.toNat < s.cfg.capacity →
    (x + 1).toNat = x.toNat + 1 ∧ x.toNat + 1 ≤ s.cfg.capacity ∧ s.cfg.capacity ≤ 2 ^ 31 ∧
    (cursorSucc s.mask x).toNat = (x.toNat + 1) % s.cfg.capacity ∧
    (x.toNat < s.cfg.capacity - 1 → (cursorSucc s.mask x).toNat = x.toNat + 1) ∧
    (x.toNat = s.cfg.capacity - 1 → (cursorSucc s.mask x).toNat = 0)

/-- R111: the difference of two cursors, for every capacity; the unsigned subtraction may wrap, the mask repairs it, and
`IDX_W` bits give the same value. -/
def Obligations.CursorDifferenceIsModuloCapacity : Prop :=
  ∀ (s : State) (h t : Word), h.toNat < s.cfg.capacity → t.toNat < s.cfg.capacity →
    (h.toNat < t.toNat → (h - t).toNat = 2 ^ 32 + h.toNat - t.toNat) ∧
    (t.toNat ≤ h.toNat → (cursorDiff s.mask h t).toNat = h.toNat - t.toNat) ∧
    (h.toNat < t.toNat → (cursorDiff s.mask h t).toNat = h.toNat + s.cfg.capacity - t.toNat) ∧
    (cursorDiff s.mask h t).toNat ≤ s.cfg.capacity - 1 ∧
    (cursorDiff s.mask h t).toNat = (h.setWidth s.cfg.idxW - t.setWidth s.cfg.idxW).toNat

/-- R112 and R113: the saturating and the wrapping increment of a counter of `n` bits. -/
def Obligations.CounterIncrementsSaturateAndWrap : Prop :=
  ∀ (n : Nat) (a : Word), n ≤ 32 → fits n a = true →
    (satIncN n a).toNat = min (a.toNat + 1) (2 ^ n - 1) ∧
    (addN n a 1).toNat = (a.toNat + 1) % 2 ^ n

/-- R140: tick increment, elapsed difference, what the difference counts after `n` ticks, and the unsigned comparison. -/
def Obligations.TickArithmeticIsModuloTickWidth : Prop :=
  ∀ w : Nat, 1 ≤ w → w ≤ 32 →
    (∀ ticks : Word, fits w ticks = true →
      (ticks.toNat < 2 ^ w - 1 → (addN w ticks 1).toNat = ticks.toNat + 1) ∧
      (ticks.toNat = 2 ^ w - 1 → (addN w ticks 1).toNat = 0)) ∧
    (∀ now start : Word, fits w now = true → fits w start = true →
      (start.toNat ≤ now.toNat → (subN w now start).toNat = now.toNat - start.toNat) ∧
      (now.toNat < start.toNat → (subN w now start).toNat = now.toNat + 2 ^ w - start.toNat) ∧
      (subN w now start).toNat ≤ 2 ^ w - 1) ∧
    (∀ (start : Word) (n : Nat), fits w start = true →
      (subN w ((fun x => addN w x 1)^[n] start) start).toNat = n % 2 ^ w) ∧
    (∀ a b : Word, geU a b = true ↔ b.toNat ≤ a.toNat)

/-! ### The step (`spec/60_exceptions.md` 3) -/

/-- A step runs the decoded command: the port's next word, once the port is free to take it, decodes to `i` and the step
is `exec i`, with the turn and the word taken from the inputs; and an operation in flight on port C goes on (R188). -/
def Obligations.StepRunsTheDecodedCommand : Prop :=
  (∀ (s : State) (later : List Ctx) (x : Request) (xs : List Request) (i : Instr),
    s.env.sched = .p :: later → s.env.reqP = x :: xs → decodeFor s.cfg.tickW (Ctx.drive .p x) = .ok i →
    step s = exec i { s with env := { s.env with sched := later, reqP := xs } }) ∧
  (∀ (s : State) (later : List Ctx) (x : Request) (xs : List Request) (i : Instr),
    s.env.sched = .t :: later → s.env.reqT = x :: xs → decodeFor s.cfg.tickW (Ctx.drive .t x) = .ok i →
    step s = exec i { s with env := { s.env with sched := later, reqT := xs } }) ∧
  (∀ (s : State) (later : List Ctx) (x : Request) (ts : List Task) (i : Instr),
    s.env.sched = .c :: later → s.seq = .idle → s.con.prog = .rest → s.env.tasks = .command x :: ts →
    decodeFor s.cfg.tickW (Ctx.drive .c x) = .ok i →
    step s = exec i { s with env := { s.env with sched := later, tasks := ts } }) ∧
  (∀ (s : State) (later : List Ctx) (i : Instr),
    s.env.sched = .c :: later → s.seq.instr = some i →
    step s = exec i { s with env := { s.env with sched := later } })

/-- R32: port C accepts a command only when `C.op = idle`. A command of context C given to it while another is in flight
has no effect; that this is what `exec` answers there is the model's reading (DEDUCED, log entry 4). -/
def Obligations.BusyPortAcceptsNothing : Prop :=
  ∀ (i j : Instr) (s : State), i.ctx = .c → s.seq.instr = some j → j ≠ i → exec i s = .next s

/-- "With no command presented and no operation in flight, nothing changes" (R188): an agent that has nothing to issue
lets its turn pass. That a state with no turn scheduled stays as it is is the model's choice (log entry 2). -/
def Obligations.NothingChangesWithoutAnEnabledStep : Prop :=
  (∀ s : State, s.env.sched = [] → step s = .next s) ∧
  (∀ (s : State) (later : List Ctx), s.env.sched = .p :: later → s.env.reqP = [] →
    step s = .next { s with env := { s.env with sched := later } }) ∧
  (∀ (s : State) (later : List Ctx), s.env.sched = .t :: later → s.env.reqT = [] →
    step s = .next { s with env := { s.env with sched := later } }) ∧
  (∀ (s : State) (later : List Ctx), s.env.sched = .c :: later → s.seq = .idle → s.con.prog = .rest →
    s.env.tasks = [] → step s = .next { s with env := { s.env with sched := later } })

/-! ### PUSH (`spec/41_ringbuffer.md` R114) -/

/-- R114: the word of PUSH; PUSH finds the buffer full and drops the byte, or stores it; in both cases it is counted and
answered. -/
def Obligations.PushStoresTheByteOrDropsIt : Prop :=
  ∀ (b : Byte) (s : State), s.inRange s.head = true →
    encode (.push b) = CmdWord.make 0b01 0x01 (b.setWidth 32) ∧
    (cursorSucc s.mask s.head = s.tail →
      exec (.push b) s = .next { s with
        overrunCount := satIncN s.cfg.cntW s.overrunCount
        totalReceivedCount := addN s.cfg.cntW s.totalReceivedCount 1
        rsp := { s.rsp with p := ⟨.full, 0⟩ :: s.rsp.p } }) ∧
    (cursorSucc s.mask s.head ≠ s.tail →
      exec (.push b) s = .next { s with
        storage := Memory.write s.storage s.head.toNat b
        head := cursorSucc s.mask s.head
        totalReceivedCount := addN s.cfg.cntW s.totalReceivedCount 1
        rsp := { s.rsp with p := ⟨.ok, 0⟩ :: s.rsp.p } })

/-- The frame of PUSH (R52, R114): the one slot it stores to is `storage[head]`, and only when the buffer is not full;
`head` moves only then and `overrunCount` only otherwise; nothing else changes but `totalReceivedCount` and the
producer's responses. -/
def Obligations.PushFrame : Prop :=
  ∀ (b : Byte) (s t : State), exec (.push b) s = .next t →
    (∀ a : Word, a ≠ s.head → t.slot a = s.slot a) ∧
    (isFull s.mask s.head s.tail = true →
      (∀ a : Word, t.slot a = s.slot a) ∧ t.head = s.head) ∧
    (isFull s.mask s.head s.tail = false → t.slot s.head = some b ∧ t.overrunCount = s.overrunCount) ∧
    t.cfg = s.cfg ∧ t.tail = s.tail ∧ t.ticks = s.ticks ∧ t.seq = s.seq ∧ t.con = s.con ∧ t.env = s.env ∧
    t.rsp.c = s.rsp.c ∧ t.rsp.t = s.rsp.t

/-- What PUSH does to the bytes held (R8, R114, R182, R217): it appends the byte while fewer than `CAPACITY - 1` are held
and answers OK; otherwise it answers FULL and the bytes held stay as they are, so the oldest are preserved. -/
def Obligations.PushAppendsUnlessCapacityMinusOneAreHeld : Prop :=
  ∀ (b : Byte) (s : State), s.Inv →
    s.contents.length = s.available.toNat ∧ s.contents.length ≤ s.cfg.capacity - 1 ∧
    (s.contents.length < s.cfg.capacity - 1 → Ends (exec (.push b) s) fun t =>
      t.contents = s.contents ++ [b] ∧ t.rsp.p = ⟨.ok, 0⟩ :: s.rsp.p) ∧
    (s.contents.length = s.cfg.capacity - 1 → Ends (exec (.push b) s) fun t =>
      t.contents = s.contents ∧ t.rsp.p = ⟨.full, 0⟩ :: s.rsp.p)

/-- R37 (d): a PUSH never writes a slot that holds a byte. -/
def Obligations.PushNeverWritesAHeldSlot : Prop :=
  ∀ (b : Byte) (s t : State), s.Inv → exec (.push b) s = .next t →
    ∀ j < s.available.toNat, t.slot (s.heldIndex j) = s.slot (s.heldIndex j)

/-! ### POP (R115) -/

/-- R115: the word of POP, its acceptance and its micro-steps c1 to c4. The acceptance as a step of its own is R188 (a)
with R32, as the model reads them (DEDUCED, log entry 3). -/
def Obligations.PopMicroSteps : Prop :=
  encode .pop = 0x0200000000 ∧
  ∀ s : State,
    (s.seq = .idle → exec .pop s = .next { s with seq := .popC1 }) ∧
    (s.seq = .popC1 → exec .pop s = .next { s with seq := .popC2 s.head }) ∧
    (∀ h, s.seq = .popC2 h → h = s.tail →
      exec .pop s = .next { s with seq := .idle, rsp := { s.rsp with c := ⟨.empty, 0⟩ :: s.rsp.c } }) ∧
    (∀ h, s.seq = .popC2 h → h ≠ s.tail → exec .pop s = .next { s with seq := .popC3 h s.tail }) ∧
    (∀ h t b, s.seq = .popC3 h t → s.inRange t = true → s.slot t = some b →
      exec .pop s = .next { s with seq := .popC4 h t b }) ∧
    (∀ h t b, s.seq = .popC4 h t b →
      exec .pop s = .next { s with
        tail := cursorSucc s.mask t
        seq := .idle
        rsp := { s.rsp with c := ⟨.ok, b.setWidth 32⟩ :: s.rsp.c } })

/-- The frame of POP and FLUSH (R115, R117): each writes `tail` in its last micro-step alone, and neither writes a slot,
`head`, a counter or `ticks`. -/
def Obligations.PopAndFlushFrame : Prop :=
  ∀ (i : Instr) (s t : State), i = .pop ∨ i = .flush → exec i s = .next t →
    (∀ a : Word, t.slot a = s.slot a) ∧
    (s.seq.label ≠ some .c4 → s.seq.label ≠ some .f2 → t.tail = s.tail) ∧
    t.cfg = s.cfg ∧ t.head = s.head ∧ t.overrunCount = s.overrunCount ∧
    t.totalReceivedCount = s.totalReceivedCount ∧ t.ticks = s.ticks ∧ t.con = s.con ∧ t.env = s.env ∧
    t.rsp.p = s.rsp.p ∧ t.rsp.t = s.rsp.t

/-- R115 corner cases (b), (c): whatever commands of P and T run between the micro-steps, a POP whose c1 finds a byte
answers with the byte that was oldest at c1, and a POP whose c1 finds none answers EMPTY and removes nothing. -/
def Obligations.PopAnswersForItsFirstMicroStep : Prop :=
  (∀ (s : State) (b : Byte) (bs : List Byte) (l1 l2 l3 later : List Ctx), s.Inv → s.seq = .popC1 →
    s.contents = b :: bs → onlyInterrupts l1 = true → onlyInterrupts l2 = true → onlyInterrupts l3 = true →
    s.env.sched = .c :: (l1 ++ .c :: (l2 ++ .c :: (l3 ++ .c :: later))) →
    Ends (run (l1.length + l2.length + l3.length + 4) s) fun t =>
      t.seq = .idle ∧ t.rsp.c = ⟨.ok, b.setWidth 32⟩ :: s.rsp.c ∧ ∃ more, t.contents = bs ++ more) ∧
  (∀ (s : State) (l later : List Ctx), s.Inv → s.seq = .popC1 → s.contents = [] → onlyInterrupts l = true →
    s.env.sched = .c :: (l ++ .c :: later) →
    Ends (run (l.length + 2) s) fun t =>
      t.seq = .idle ∧ t.rsp.c = ⟨.empty, 0⟩ :: s.rsp.c ∧ t.tail = s.tail)

/-- R124 (b): the last micro-step of a POP does exactly what an atomic POP of the same state would do. -/
def Obligations.PopIsAtomicAtItsLastMicroStep : Prop :=
  ∀ (s : State) (h t : Word) (b : Byte), s.Inv → s.seq = .popC4 h t b →
    ∃ oldest rest, s.contents = oldest :: rest ∧
      Ends (exec .pop s) fun u => u = { s with
        tail := cursorSucc s.mask s.tail
        seq := .idle
        rsp := { s.rsp with c := ⟨.ok, oldest.setWidth 32⟩ :: s.rsp.c } } ∧ u.contents = rest

/-! ### AVAIL, FLUSH, RDOVR, RDTOT (R116 to R119) -/

/-- R116: the words of AVAIL; AVAIL in context C, micro-step by micro-step, and in context P as one step that leaves the
sequencer alone. The acceptance as a step of its own is R188 (a) with R32, as the model reads them (DEDUCED, log entry
3). -/
def Obligations.AvailAnswersTheNumberOfBytesHeld : Prop :=
  encode (.avail .c) = 0x0300000000 ∧ encode (.avail .p) = 0x4300000000 ∧
  ∀ s : State,
    (s.seq = .idle → exec (.avail .c) s = .next { s with seq := .availA1 }) ∧
    (s.seq = .availA1 → exec (.avail .c) s = .next { s with seq := .availA2 s.head }) ∧
    (∀ h, s.seq = .availA2 h → exec (.avail .c) s = .next { s with
      seq := .idle, rsp := { s.rsp with c := ⟨.ok, (h - s.tail) &&& s.mask⟩ :: s.rsp.c } }) ∧
    exec (.avail .p) s = .next { s with rsp := { s.rsp with p := ⟨.ok, (s.head - s.tail) &&& s.mask⟩ :: s.rsp.p } }

/-- R116 corner case (c), R124 (c): whatever runs between its micro-steps, an AVAIL in context C answers with the number
held at its a1, and at least that many are held when it responds. -/
def Obligations.AvailAnswersForItsFirstMicroStep : Prop :=
  ∀ (s : State) (l later : List Ctx), s.Inv → s.seq = .availA1 → onlyInterrupts l = true →
    s.env.sched = .c :: (l ++ .c :: later) →
    Ends (run (l.length + 2) s) fun t =>
      t.seq = .idle ∧ t.rsp.c = ⟨.ok, s.available⟩ :: s.rsp.c ∧ s.available.toNat ≤ t.available.toNat

/-- R117: the word of FLUSH, and FLUSH micro-step by micro-step. The acceptance as a step of its own is R188 (a) with
R32, as the model reads them (DEDUCED, log entry 3). -/
def Obligations.FlushMicroSteps : Prop :=
  encode .flush = 0x0400000000 ∧
  ∀ s : State,
    (s.seq = .idle → exec .flush s = .next { s with seq := .flushF1 }) ∧
    (s.seq = .flushF1 → exec .flush s = .next { s with seq := .flushF2 s.head }) ∧
    (∀ h, s.seq = .flushF2 h → exec .flush s = .next { s with
      tail := h, seq := .idle, rsp := { s.rsp with c := ⟨.ok, 0⟩ :: s.rsp.c } })

/-- R117 corner case (b), R220: after a FLUSH exactly the bytes stored between its two micro-steps are held, in order. -/
def Obligations.FlushKeepsTheBytesStoredDuringIt : Prop :=
  ∀ (s : State) (l later : List Ctx), s.Inv → s.seq = .flushF1 → onlyInterrupts l = true →
    s.env.sched = .c :: (l ++ .c :: later) →
    Ends (run (l.length + 1) s) fun u => s.contents <+: u.contents ∧
      Ends (run (l.length + 2) s) fun t =>
        t.seq = .idle ∧ t.rsp.c = ⟨.ok, 0⟩ :: s.rsp.c ∧ t.contents = u.contents.drop s.contents.length

/-- R118: the words of RDOVR; RDOVR answers `overrunCount` and writes nothing. The acceptance as a step of its own is
R188 (a) with R32, as the model reads them (DEDUCED, log entry 3). -/
def Obligations.RdovrAnswersTheOverrunCount : Prop :=
  encode (.rdovr .c) = 0x0500000000 ∧ encode (.rdovr .p) = 0x4500000000 ∧
  ∀ s : State,
    (s.seq = .idle → exec (.rdovr .c) s = .next { s with seq := .rdovrR1 }) ∧
    (s.seq = .rdovrR1 → exec (.rdovr .c) s = .next { s with
      seq := .idle, rsp := { s.rsp with c := ⟨.ok, s.overrunCount⟩ :: s.rsp.c } }) ∧
    exec (.rdovr .p) s = .next { s with rsp := { s.rsp with p := ⟨.ok, s.overrunCount⟩ :: s.rsp.p } }

/-- R119: the words of RDTOT; RDTOT answers `totalReceivedCount` and writes nothing. The acceptance as a step of its own
is R188 (a) with R32, as the model reads them (DEDUCED, log entry 3). -/
def Obligations.RdtotAnswersTheTotalReceivedCount : Prop :=
  encode (.rdtot .c) = 0x0600000000 ∧ encode (.rdtot .p) = 0x4600000000 ∧
  ∀ s : State,
    (s.seq = .idle → exec (.rdtot .c) s = .next { s with seq := .rdtotT1 }) ∧
    (s.seq = .rdtotT1 → exec (.rdtot .c) s = .next { s with
      seq := .idle, rsp := { s.rsp with c := ⟨.ok, s.totalReceivedCount⟩ :: s.rsp.c } }) ∧
    exec (.rdtot .p) s = .next { s with rsp := { s.rsp with p := ⟨.ok, s.totalReceivedCount⟩ :: s.rsp.p } }

/-! ### TICK, NOW, DELAY, ELAPSED (`spec/42_tickclock.md` R141 to R144) -/

/-- R141: the word of TICK; TICK increments `ticks` modulo `2^TICK_W` and writes nothing else. -/
def Obligations.TickIncrementsTicks : Prop :=
  encode .tick = 0x8800000000 ∧
  ∀ s : State, exec .tick s = .next { s with
    ticks := addN s.cfg.tickW s.ticks 1
    rsp := { s.rsp with t := ⟨.ok, 0⟩ :: s.rsp.t } }

/-- R142: the words of NOW; NOW answers `ticks` and writes nothing. The acceptance as a step of its own is R188 (a) with
R32, as the model reads them (DEDUCED, log entry 3). -/
def Obligations.NowAnswersTicks : Prop :=
  encode (.now .c) = 0x0900000000 ∧ encode (.now .p) = 0x4900000000 ∧
  ∀ s : State,
    (s.seq = .idle → exec (.now .c) s = .next { s with seq := .nowN1 }) ∧
    (s.seq = .nowN1 → exec (.now .c) s = .next { s with
      seq := .idle, rsp := { s.rsp with c := ⟨.ok, s.ticks⟩ :: s.rsp.c } }) ∧
    exec (.now .p) s = .next { s with rsp := { s.rsp with p := ⟨.ok, s.ticks⟩ :: s.rsp.p } }

/-- R143: the word of DELAY, its acceptance, its d1, and its d2, which responds or is next again. The acceptance as a
step of its own is R188 (a) with R32, as the model reads them (DEDUCED, log entry 3). -/
def Obligations.DelayMicroSteps : Prop :=
  ∀ (imm : Word) (s : State),
    encode (.delay imm) = CmdWord.make 0b00 0x0A imm ∧
    (s.seq = .idle → exec (.delay imm) s = .next { s with seq := .delayD1 imm }) ∧
    (s.seq = .delayD1 imm → exec (.delay imm) s = .next { s with seq := .delayD2 imm s.ticks none }) ∧
    (∀ start now, s.seq = .delayD2 imm start now → imm.toNat ≤ (subN s.cfg.tickW s.ticks start).toNat →
      exec (.delay imm) s = .next { s with seq := .idle, rsp := { s.rsp with c := ⟨.ok, 0⟩ :: s.rsp.c } }) ∧
    (∀ start now, s.seq = .delayD2 imm start now → (subN s.cfg.tickW s.ticks start).toNat < imm.toNat →
      exec (.delay imm) s = .next { s with seq := .delayD2 imm start (some s.ticks) })

/-- R144: the words of ELAPSED; ELAPSED answers the unsigned difference of `ticks` and the stamp; in context P no latch
is touched. The acceptance as a step of its own is R188 (a) with R32, as the model reads them (DEDUCED, log entry 3).
The port keeps the operand from the acceptance to e1. -/
def Obligations.ElapsedAnswersTheDifference : Prop :=
  ∀ (imm : Word) (s : State),
    encode (.elapsed .c imm) = CmdWord.make 0b00 0x0B imm ∧ encode (.elapsed .p imm) = CmdWord.make 0b01 0x0B imm ∧
    (s.seq = .idle → exec (.elapsed .c imm) s = .next { s with seq := .elapsedE1 imm }) ∧
    (s.seq = .elapsedE1 imm → exec (.elapsed .c imm) s = .next { s with
      seq := .idle, rsp := { s.rsp with c := ⟨.ok, subN s.cfg.tickW s.ticks imm⟩ :: s.rsp.c } }) ∧
    exec (.elapsed .p imm) s = .next { s with
      rsp := { s.rsp with p := ⟨.ok, subN s.cfg.tickW s.ticks imm⟩ :: s.rsp.p } }

/-- The frame of the six operations that write no shared state, AVAIL, RDOVR, RDTOT, NOW, DELAY and ELAPSED (R61, R143):
every slot, cursor, counter and `ticks` are as before, an operation of context P leaves the sequencer alone, and only
the issuing port gets a response. -/
def Obligations.QueriesAndDelayWriteNoSharedState : Prop :=
  ∀ (i : Instr) (s t : State),
    ((∃ q, i = .avail q) ∨ (∃ q, i = .rdovr q) ∨ (∃ q, i = .rdtot q) ∨ (∃ q, i = .now q) ∨ (∃ n, i = .delay n) ∨
      (∃ q n, i = .elapsed q n)) →
    exec i s = .next t →
    (∀ a : Word, t.slot a = s.slot a) ∧
    t.cfg = s.cfg ∧ t.head = s.head ∧ t.tail = s.tail ∧ t.overrunCount = s.overrunCount ∧
    t.totalReceivedCount = s.totalReceivedCount ∧ t.ticks = s.ticks ∧ t.con = s.con ∧ t.env = s.env ∧
    t.rsp.t = s.rsp.t ∧
    (i.ctx = .p → t.seq = s.seq ∧ t.rsp.c = s.rsp.c) ∧
    (i.ctx = .c → t.rsp.p = s.rsp.p)

/-- R146, R224: a DELAY that fewer TICK turns reach than it still needs never responds, however long the machine runs and
whatever the producer does meanwhile. -/
def Obligations.DelayNeverRespondsWithoutItsTicks : Prop :=
  ∀ (s : State) (arg start : Word) (now : Option Word), s.Inv → s.seq = .delayD2 arg start now →
    (subN s.cfg.tickW s.ticks start).toNat + s.env.sched.count .t < arg.toNat →
    ∀ n, Ends (run n s) fun t => t.rsp.c = s.rsp.c ∧ ∃ now', t.seq = .delayD2 arg start now'

/-- R143 corner case (b), R146: a DELAY polled after every TICK responds at the poll after the last TICK it needs, also
across the wrap of `ticks`; and one whose duration has passed, or is 0, responds at its next poll. -/
def Obligations.DelayRespondsAtThePollAfterItsLastTick : Prop :=
  (∀ (s : State) (arg start : Word) (now : Option Word) (k : Nat) (reqs : List Request) (later : List Ctx),
    s.Inv → s.seq = .delayD2 arg start now → 0 < k → (subN s.cfg.tickW s.ticks start).toNat + k = arg.toNat →
    s.env.reqT = List.replicate k Instr.tick.request ++ reqs →
    s.env.sched = (List.replicate k [Ctx.t, Ctx.c]).flatten ++ later →
    Ends (run (2 * k) s) fun t => t.seq = .idle ∧ t.rsp.c = ⟨.ok, 0⟩ :: s.rsp.c) ∧
  (∀ (s : State) (later : List Ctx), s.seq = .delayD1 0 → s.env.sched = .c :: .c :: later →
    Ends (run 2 s) fun t => t.seq = .idle ∧ t.rsp.c = ⟨.ok, 0⟩ :: s.rsp.c)

/-- R145 with R140 (c): a stamp taken `n` TICK commands ago reads `n` modulo `2^TICK_W`, whether or not the counter
wrapped; in particular `MAX - 2` reads 5 after five ticks, in every block with `TICK_W >= 3`. The two turns of C in the
context C clause are the acceptance and e1 (DEDUCED, log entry 3). -/
def Obligations.ElapsedCountsTheTicksSinceTheStamp : Prop :=
  (∀ (s : State) (n : Nat) (reqs reqs' : List Request) (later : List Ctx), s.Inv →
    s.env.sched = List.replicate n Ctx.t ++ .p :: later →
    s.env.reqT = List.replicate n Instr.tick.request ++ reqs →
    s.env.reqP = (Instr.elapsed .p s.ticks).request :: reqs' →
    Ends (run (n + 1) s) fun t =>
      t.rsp.p = ⟨.ok, BitVec.ofNat 32 (n % 2 ^ s.cfg.tickW)⟩ :: s.rsp.p) ∧
  (∀ (s : State) (n : Nat) (reqs : List Request) (ts : List Task) (later : List Ctx), s.Inv → s.seq = .idle →
    s.con.prog = .rest → s.env.sched = List.replicate n Ctx.t ++ .c :: .c :: later →
    s.env.reqT = List.replicate n Instr.tick.request ++ reqs →
    s.env.tasks = .command (Instr.elapsed .c s.ticks).request :: ts →
    Ends (run (n + 2) s) fun t =>
      t.rsp.c = ⟨.ok, BitVec.ofNat 32 (n % 2 ^ s.cfg.tickW)⟩ :: s.rsp.c) ∧
  (∀ (s : State) (reqs reqs' : List Request) (later : List Ctx), s.Inv → 3 ≤ s.cfg.tickW →
    s.ticks.toNat = 2 ^ s.cfg.tickW - 1 - 2 →
    s.env.sched = List.replicate 5 Ctx.t ++ .p :: later →
    s.env.reqT = List.replicate 5 Instr.tick.request ++ reqs →
    s.env.reqP = (Instr.elapsed .p s.ticks).request :: reqs' →
    Ends (run 6 s) fun t => t.rsp.p = ⟨.ok, 5⟩ :: s.rsp.p ∧ t.ticks = 2)

/-! ### Preemption and ownership (`spec/10_state.md` R30, `spec/60_exceptions.md` R188 to R193) -/

/-- R191: a command of context P or T neither writes nor reads the consumer sequencer and its latches: the step leaves
them as they were, and with any other sequencer position it does the same to everything else. -/
def Obligations.InterruptsPreserveTheConsumer : Prop :=
  ∀ (s t : State) (who : Ctx) (later : List Ctx), s.env.sched = who :: later → who ≠ .c → step s = .next t →
    t.seq = s.seq ∧ t.tail = s.tail ∧ t.con = s.con ∧ t.env.tasks = s.env.tasks ∧ t.rsp.c = s.rsp.c ∧
    ∀ q : Seq, step { s with seq := q } = .next { t with seq := q }

/-- R30: every field has one writing context, in every step of the machine, and nothing writes the configuration (R21,
R40). -/
def Obligations.EveryFieldHasOneWritingContext : Prop :=
  ∀ (s t : State) (who : Ctx) (later : List Ctx), s.env.sched = who :: later → step s = .next t →
    t.cfg = s.cfg ∧
    (who ≠ .p → t.storage = s.storage ∧ t.head = s.head ∧ t.overrunCount = s.overrunCount ∧
      t.totalReceivedCount = s.totalReceivedCount ∧ t.rsp.p = s.rsp.p) ∧
    (who ≠ .c → t.tail = s.tail ∧ t.seq = s.seq ∧ t.con = s.con ∧ t.rsp.c = s.rsp.c) ∧
    (who ≠ .t → t.ticks = s.ticks ∧ t.rsp.t = s.rsp.t)

/-- R193: TICK commutes with every ring-buffer operation (opcode bit 3 clear), and PUSH with every clock operation that
another agent issues (opcode bit 3 set, context C or T). -/
def Obligations.ClockAndBufferOperationsCommute : Prop :=
  (∀ (i : Instr) (s t u : State), i.opcode.getLsbD 3 = false → exec i s = .next t → exec .tick s = .next u →
    ∃ v, exec .tick t = .next v ∧ exec i u = .next v) ∧
  (∀ (i : Instr) (b : Byte) (s t u : State), i.opcode.getLsbD 3 = true → i.ctx ≠ .p → exec i s = .next t →
    exec (.push b) s = .next u → ∃ v, exec (.push b) t = .next v ∧ exec i u = .next v)

/-! ### State, reset and invariants (`spec/10_state.md`, `spec/70_reset_and_hazards.md`) -/

/-- R36: the value of every piece of state after reset, for every configuration. The values are those of the spec's
table, most of them its decisions D12 and D20. -/
def Obligations.ResetValues : Prop :=
  ∀ cfg : Config,
    (State.construct cfg).cfg = cfg ∧ (∀ i, (State.construct cfg).slot i = none) ∧
    (State.construct cfg).head = 0 ∧ (State.construct cfg).tail = 0 ∧
    (State.construct cfg).overrunCount = 0 ∧ (State.construct cfg).totalReceivedCount = 0 ∧
    (State.construct cfg).ticks = cfg.tickInit ∧ (State.construct cfg).seq.instr = none ∧
    (State.construct cfg).seq.latchH = none ∧ (State.construct cfg).seq.latchT = none ∧
    (State.construct cfg).seq.latchB = none ∧ (State.construct cfg).seq.latchStart = none ∧
    (State.construct cfg).seq.latchNow = none ∧ (State.construct cfg).seq.latchArg = none ∧
    (State.construct cfg).con.lastReportTick = 0 ∧ (State.construct cfg).con.sessionState = .idle ∧
    State.reset.ticks = 0

/-- R33, U16: no latch has a value between operations. -/
def Obligations.LatchesHoldNoValueWhileIdle : Prop :=
  ∀ q : Seq, q.instr = none →
    q.label = none ∧ q.latchH = none ∧ q.latchT = none ∧ q.latchB = none ∧ q.latchStart = none ∧
    q.latchNow = none ∧ q.latchArg = none

/-- The invariant of R37 holds right after construction, whatever legal configuration was constructed and whatever the
environment is going to present. -/
def Obligations.ConstructedBlockMeetsTheInvariant : Prop :=
  State.reset.Inv ∧
  ∀ (cfg : Config) (e : Env), cfg.legal = true →
    ((State.construct cfg).setEnv e).Inv ∧ ((State.construct cfg).setEnv e).OverrunExact

/-- R37 (a) to (e), with the ranges of R20 and the staleness of R38: every step of every agent keeps the invariant. -/
def Obligations.StepKeepsTheInvariant : Prop :=
  ∀ s t : State, s.Inv → step s = .next t → t.Inv

/-- R180, R37 (e), U3: a block that meets the invariant never stops. No operation reads a slot that was never written,
none leaves the array, and none is refused. -/
def Obligations.StepNeverStops : Prop :=
  ∀ s : State, s.Inv → Ends (step s) fun _ => True

/-- R25, R27, C4: below its ceiling `overrunCount` is the number of FULL responses since reset, and it stays at the
ceiling after that; every step of every agent keeps this. -/
def Obligations.StepKeepsOverrunCountExact : Prop :=
  ∀ s t : State, s.OverrunExact → step s = .next t → t.OverrunExact

/-- R25, R26, R40: nothing clears or lowers `overrunCount`; it moves only together with `totalReceivedCount`, by one, with
a FULL response; and `totalReceivedCount` moves only by its wrapping increment, on a turn of context P. -/
def Obligations.CountersMoveOnlyByTheirIncrements : Prop :=
  ∀ s t : State, step s = .next t →
    (t.overrunCount = s.overrunCount ∨
      (t.overrunCount = satIncN s.cfg.cntW s.overrunCount ∧ t.rsp.p = ⟨.full, 0⟩ :: s.rsp.p ∧
        t.totalReceivedCount = addN s.cfg.cntW s.totalReceivedCount 1)) ∧
    s.overrunCount.toNat ≤ t.overrunCount.toNat ∧
    (t.totalReceivedCount = s.totalReceivedCount ∨
      (t.totalReceivedCount = addN s.cfg.cntW s.totalReceivedCount 1 ∧ ∃ later, s.env.sched = .p :: later))

/-- R38, R219: a turn of P or T only adds bytes behind those held, and a turn of C only removes bytes from the front. -/
def Obligations.OnlyTheConsumerRemovesBytes : Prop :=
  ∀ (s t : State) (who : Ctx) (later : List Ctx), s.Inv → s.env.sched = who :: later → step s = .next t →
    (who ≠ .c → s.contents <+: t.contents) ∧ (who ≠ .p → t.contents <:+ s.contents)

/-- R211: what the operations answer right after reset, one after the other in context C, and that the first `CAPACITY -
1` PUSH commands are answered OK. Each acceptance counts as one turn (DEDUCED, log entry 3). -/
def Obligations.AnswersRightAfterReset : Prop :=
  (∀ (cfg : Config) (later : List Ctx) (ts : List Task) (rp rt : List Request), cfg.legal = true →
    Ends (run 17 ((State.construct cfg).setEnv ⟨List.replicate 17 Ctx.c ++ later,
      [.command (Instr.avail .c).request, .command Instr.pop.request, .command (Instr.rdovr .c).request,
        .command (Instr.rdtot .c).request, .command (Instr.now .c).request, .command (Instr.elapsed .c 0).request,
        .command Instr.flush.request] ++ ts, rp, rt⟩)) fun t =>
      t.rsp.c.reverse = [⟨.ok, 0⟩, ⟨.empty, 0⟩, ⟨.ok, 0⟩, ⟨.ok, 0⟩, ⟨.ok, cfg.tickInit⟩, ⟨.ok, cfg.tickInit⟩, ⟨.ok, 0⟩] ∧
      t.tail = 0 ∧ t.seq = .idle) ∧
  (∀ (cfg : Config) (bytes : List Byte) (later : List Ctx) (ts : List Task) (rp rt : List Request),
    cfg.legal = true → bytes.length ≤ cfg.capacity - 1 →
    Ends (run bytes.length ((State.construct cfg).setEnv
      ⟨List.replicate bytes.length Ctx.p ++ later, ts, pushN bytes ++ rp, rt⟩)) fun t =>
      t.rsp.p = List.replicate bytes.length ⟨.ok, 0⟩)

/-! ### The properties the source states (`spec/41_ringbuffer.md` 8) -/

/-- R121: N pushes from an empty buffer with no pop between, N > CAPACITY - 1 and no saturation: `overrunCount` grows by
`N - (CAPACITY - 1)`, and draining retrieves exactly the first `CAPACITY - 1` bytes. That `totalReceivedCount` grows by
N modulo `2^CNT_W` is R113 with the spec's decision D9 (DEDUCED, log entry 21), and the number of turns of the drain
(R94) rests on log entry 3. No turn of T stands among the pushes or in the drain. -/
def Obligations.OverrunAccounting : Prop :=
  ∀ (s : State) (bytes : List Byte) (reqs : List Request) (ts : List Task) (later : List Ctx),
    s.Inv → s.seq = .idle → s.con.prog = .rest → s.head = s.tail →
    s.cfg.capacity - 1 < bytes.length →
    s.overrunCount.toNat + (bytes.length - (s.cfg.capacity - 1)) ≤ 2 ^ s.cfg.cntW - 1 →
    s.env.reqP = pushN bytes ++ reqs → s.env.tasks = .drain :: ts →
    s.env.sched = List.replicate bytes.length Ctx.p ++ (List.replicate (5 * (s.cfg.capacity - 1) + 4) Ctx.c ++ later) →
    Ends (run bytes.length s) fun u =>
      u.overrunCount.toNat = s.overrunCount.toNat + (bytes.length - (s.cfg.capacity - 1)) ∧
      u.totalReceivedCount.toNat = (s.totalReceivedCount.toNat + bytes.length) % 2 ^ s.cfg.cntW ∧
      Ends (run (bytes.length + (5 * (s.cfg.capacity - 1) + 4)) s) fun t =>
        t.con.drained = bytes.take (s.cfg.capacity - 1) ∧ t.con.prog = .rest ∧ t.contents = []

/-- R122: a FIFO. Whatever the schedule, the bytes that POP has returned so far, followed by the bytes still held, are
exactly the pushed bytes whose PUSH was answered OK, in order; and if no more than `CAPACITY - 1` are pushed in all,
every PUSH is answered OK. (A consumer that issues POP only: no byte is flushed.) -/
def Obligations.PoppedBytesArePushedBytesInOrder : Prop :=
  ∀ (cfg : Config) (bytes : List Byte) (pops n : Nat) (sched : List Ctx) (reqT : List Request), cfg.legal = true →
    Ends (run n ((State.construct cfg).setEnv
      ⟨sched, List.replicate pops (.command Instr.pop.request), pushN bytes, reqT⟩)) fun t =>
      poppedBytes t.rsp.c ++ t.contents = acceptedBytes bytes t.rsp.p ∧
      t.rsp.p.length ≤ bytes.length ∧
      (bytes.length ≤ cfg.capacity - 1 → acceptedBytes bytes t.rsp.p = bytes.take t.rsp.p.length)

/-- R123: with nothing overlapping, AVAIL answers the number of bytes that a drain then returns, which are the bytes
held; after a FLUSH nothing is held and AVAIL answers 0; and a second FLUSH changes nothing but the inputs and the
responses. Each acceptance counts as one turn (DEDUCED, log entry 3), and DRAIN is R94 (log entry 16). -/
def Obligations.DrainReturnsTheAvailableBytesAndFlushEmpties : Prop :=
  (∀ (s : State) (ts : List Task) (later : List Ctx), s.Inv → s.seq = .idle → s.con.prog = .rest →
    s.env.tasks = .command (Instr.avail .c).request :: .drain :: ts →
    s.env.sched = List.replicate 3 Ctx.c ++ (List.replicate (5 * s.available.toNat + 4) Ctx.c ++ later) →
    Ends (run 3 s) fun u => u.rsp.c = ⟨.ok, s.available⟩ :: s.rsp.c ∧
      Ends (run (5 * s.available.toNat + 4) u) fun t =>
        t.con.drained = s.contents ∧ t.con.drained.length = s.available.toNat ∧ t.contents = [] ∧
        t.con.prog = .rest ∧ t.seq = .idle ∧ t.env.tasks = ts) ∧
  (∀ (s : State) (ts : List Task) (later : List Ctx), s.seq = .idle → s.con.prog = .rest →
    s.env.tasks = .command Instr.flush.request :: .command Instr.flush.request ::
      .command (Instr.avail .c).request :: ts →
    s.env.sched = List.replicate 9 Ctx.c ++ later →
    Ends (run 3 s) fun u => u.seq = .idle ∧ u.available = 0 ∧ u.tail = s.head ∧
      Ends (run 3 u) fun v =>
        v = { u with env := v.env, rsp := { u.rsp with c := ⟨.ok, 0⟩ :: u.rsp.c } } ∧
        Ends (run 3 v) fun t => t.rsp.c = ⟨.ok, 0⟩ :: v.rsp.c)

/-! ### The reference consumer program (`spec/43_console_session.md`) -/

/-- R162, R163: what ConsoleSession does with the answer to the POP of q1. `CMD_SET` has the two members of log entry 15
(DEDUCED). What `sessionState` becomes is the spec's own decision D20, recorded in R165; R165 and U15 would have a claim
leave it out, and it appears here only because each clause gives the whole next state of the software. -/
def Obligations.ConsoleDispatchesTheByte : Prop :=
  ∀ (s : State) (r : Response),
    (r.status ≠ .ok → progStep .pollPop r s =
      ({ s with con := { s.con with sessionState := .idle, prog := .pollElapsed } },
        some (.elapsed .c s.con.lastReportTick))) ∧
    (r.status = .ok → popByte r = s.cfg.cmdStatus → progStep .pollPop r s =
      ({ s with con := { s.con with sessionState := .awaitingCommandEcho, prog := .pollAvail .onCommand } },
        some (.avail .c))) ∧
    (r.status = .ok → popByte r ≠ s.cfg.cmdStatus → popByte r = s.cfg.cmdFlush → progStep .pollPop r s =
      ({ s with con := { s.con with sessionState := .awaitingCommandEcho, prog := .pollFlush } }, some .flush)) ∧
    (r.status = .ok → popByte r ≠ s.cfg.cmdStatus → popByte r ≠ s.cfg.cmdFlush → s.cfg.echoPolicy = .ignore →
      progStep .pollPop r s =
        ({ s with con := { s.con with sessionState := .idle, prog := .pollElapsed } },
          some (.elapsed .c s.con.lastReportTick))) ∧
    (r.status = .ok → popByte r ≠ s.cfg.cmdStatus → popByte r ≠ s.cfg.cmdFlush → s.cfg.echoPolicy = .echo →
      progStep .pollPop r s =
        ({ s with con := { s.con with sessionState := .idle, prog := .pollElapsed,
                                      sink := .echoed (popByte r) :: s.con.sink } },
          some (.elapsed .c s.con.lastReportTick)))

/-- R162: a POLL of an empty buffer that nothing preempts. When the report interval has passed, it emits the telemetry
triple and takes the `ticks` value that ELAPSED read as the new `lastReportTick`; otherwise it emits nothing. The new
value of `lastReportTick` and the order of the readings are the spec's decision D20; the numbers of turns rest on log
entries 3 and 14 (DEDUCED). -/
def Obligations.PollReportsWhenTheIntervalHasPassed : Prop :=
  ∀ (s : State) (ts : List Task) (later : List Ctx), s.Inv → s.seq = .idle → s.con.prog = .rest → s.head = s.tail →
    s.env.tasks = .poll :: ts →
    (s.cfg.reportInterval.toNat ≤ (subN s.cfg.tickW s.ticks s.con.lastReportTick).toNat →
      s.env.sched = List.replicate 13 Ctx.c ++ later →
      Ends (run 13 s) fun t =>
        t.con.sink = .telemetry 0 s.overrunCount s.totalReceivedCount :: s.con.sink ∧
        t.con.lastReportTick = s.ticks ∧ t.con.prog = .rest ∧ t.seq = .idle ∧ t.tail = s.tail) ∧
    ((subN s.cfg.tickW s.ticks s.con.lastReportTick).toNat < s.cfg.reportInterval.toNat →
      s.env.sched = List.replicate 6 Ctx.c ++ later →
      Ends (run 6 s) fun t =>
        t.con.sink = s.con.sink ∧ t.con.lastReportTick = s.con.lastReportTick ∧ t.con.prog = .rest ∧
        t.seq = .idle ∧ t.tail = s.tail)

/-- R161: ConsoleSession never changes the block directly. Its own reaction to a response leaves every field but its own
as it was, and what it asks for is a command of context C. -/
def Obligations.ConsoleActsOnlyThroughCommands : Prop :=
  ∀ (p : ProgPos) (r : Response) (s : State),
    (progStep p r s).1 = { s with con := (progStep p r s).1.con } ∧
    ∀ i, (progStep p r s).2 = some i → i.ctx = .c
end

