-- ==== Sys2Proof/Laws/Arith.lean ====
section
/-! SUPPORT. The arithmetic of the block pushed down to numbers: a mask of low ones is a remainder, and the parameters
have the ranges that R6 and R7 give them. -/

namespace Sys2Proof

namespace Config

theorem idxW_pos (cfg : Config) : 1 ≤ cfg.idxW := Nat.le_add_left 1 _

theorem idxW_le (cfg : Config) : cfg.idxW ≤ 31 := cfg.capExpPred.isLt

theorem tickW_pos (cfg : Config) : 1 ≤ cfg.tickW := Nat.le_add_left 1 _

theorem tickW_le (cfg : Config) : cfg.tickW ≤ 32 := cfg.tickWPred.isLt

theorem cntW_pos (cfg : Config) : 1 ≤ cfg.cntW := Nat.le_add_left 1 _

theorem cntW_le (cfg : Config) : cfg.cntW ≤ 32 := cfg.cntWPred.isLt

/-- The smallest legal capacity is 2 (R7, R8). -/
theorem two_le_capacity (cfg : Config) : 2 ≤ cfg.capacity :=
  Nat.pow_le_pow_right (n := 2) (by decide) cfg.idxW_pos

/-- `CAPACITY` fits a word (R7). -/
theorem capacity_le (cfg : Config) : cfg.capacity ≤ 2 ^ 31 :=
  Nat.pow_le_pow_right (by decide) cfg.idxW_le

end Config

namespace Machine

theorem lowMask_toNat {n : Nat} (hn : n ≤ 32) : (lowMask n).toNat = 2 ^ n - 1 := by
  have h : 2 ^ n ≤ 2 ^ 32 := Nat.pow_le_pow_right (by decide) hn
  have hp : 0 < 2 ^ n := Nat.two_pow_pos n
  simp only [lowMask, BitVec.toNat_ofNat]
  exact Nat.mod_eq_of_lt (by omega)

/-- Masking with `n` low ones is the remainder modulo `2^n`. -/
theorem and_lowMask_toNat {n : Nat} (hn : n ≤ 32) (x : Word) : (x &&& lowMask n).toNat = x.toNat % 2 ^ n := by
  rw [BitVec.toNat_and, lowMask_toNat hn, Nat.and_two_pow_sub_one_eq_mod]

/-- A remainder modulo `2^32` taken modulo a smaller power of two is that smaller remainder. -/
theorem mod_word_mod {n : Nat} (hn : n ≤ 32) (x : Nat) : x % 2 ^ 32 % 2 ^ n = x % 2 ^ n :=
  Nat.mod_mod_of_dvd x (Nat.pow_dvd_pow 2 hn)

theorem mask_toNat (s : State) : s.mask.toNat = s.cfg.capacity - 1 :=
  lowMask_toNat (Nat.le_trans s.cfg.idxW_le (by decide))

/-- Masking with `MASK` is the remainder modulo `CAPACITY`. -/
theorem and_mask_toNat (s : State) (x : Word) : (x &&& s.mask).toNat = x.toNat % s.cfg.capacity :=
  and_lowMask_toNat (Nat.le_trans s.cfg.idxW_le (by decide)) x

end Machine

end Sys2Proof
end

