-- ==== Sys2Proof/Laws/Decode.lean ====
section
/-! SUPPORT. The fields of a command word: each field of a made word, and a word made of its own fields. -/

namespace Sys2Proof

@[simp] theorem CmdWord.make_ctx (a : BitVec 2) (b : BitVec 6) (v : Word) : CmdWord.ctx (CmdWord.make a b v) = a := by
  apply BitVec.eq_of_getLsbD_eq
  intro i hi
  simp only [CmdWord.ctx, CmdWord.make, BitVec.getLsbD_extractLsb', BitVec.getLsbD_append]
  have h1 : ¬ (38 + i < 6 + 32) := by omega
  have h2 : 38 + i - (6 + 32) = i := by omega
  simp [hi, h2]

@[simp] theorem CmdWord.make_opcode (a : BitVec 2) (b : BitVec 6) (v : Word) :
    CmdWord.opcode (CmdWord.make a b v) = b := by
  apply BitVec.eq_of_getLsbD_eq
  intro i hi
  simp only [CmdWord.opcode, CmdWord.make, BitVec.getLsbD_extractLsb', BitVec.getLsbD_append]
  have h1 : 32 + i < 6 + 32 := by omega
  have h2 : ¬ (32 + i < 32) := by omega
  simp [hi, h1]

@[simp] theorem CmdWord.make_operand (a : BitVec 2) (b : BitVec 6) (v : Word) :
    CmdWord.operand (CmdWord.make a b v) = v := by
  apply BitVec.eq_of_getLsbD_eq
  intro i hi
  simp only [CmdWord.operand, CmdWord.make, BitVec.getLsbD_extractLsb', BitVec.getLsbD_append]
  have h1 : i < 6 + 32 := by omega
  simp only [Nat.zero_add, hi, h1, decide_true, Bool.true_and, if_true]

/-- A word is made of its three fields (R81). -/
theorem CmdWord.make_fields (w : CmdWord) : CmdWord.make (CmdWord.ctx w) (CmdWord.opcode w) (CmdWord.operand w) = w := by
  apply BitVec.eq_of_getLsbD_eq
  intro i hi
  simp only [CmdWord.ctx, CmdWord.opcode, CmdWord.operand, CmdWord.make, BitVec.getLsbD_extractLsb',
    BitVec.getLsbD_append]
  by_cases h1 : i < 32
  · have h2 : i < 6 + 32 := by omega
    simp [h1, h2]
  · by_cases h2 : i < 6 + 32
    · have h3 : i - 32 < 6 := by omega
      have h4 : 32 + (i - 32) = i := by omega
      simp [h1, h2, h3, h4]
    · have h3 : i - (6 + 32) < 2 := by omega
      have h4 : 38 + (i - (6 + 32)) = i := by omega
      have h5 : 38 + (i - 38) = i := by omega
      simp [h2, h3, h5]

@[simp] theorem imm8Of_append (b : Byte) : imm8Of ((0 : BitVec 24) ++ b) = b := by
  apply BitVec.eq_of_getLsbD_eq
  intro i hi
  have h1 : i < 8 := hi
  simp only [imm8Of, BitVec.getLsbD_extractLsb', BitVec.getLsbD_append, Nat.zero_add, h1, decide_true, Bool.true_and,
    if_true]

@[simp] theorem highOf_append (b : Byte) : highOf ((0 : BitVec 24) ++ b) = 0 := by
  apply BitVec.eq_of_getLsbD_eq
  intro i hi
  have h1 : ¬ (8 + i < 8) := by omega
  simp only [highOf, BitVec.getLsbD_extractLsb', BitVec.getLsbD_append, h1, if_false]
  simp

@[simp] theorem Ctx.ofCode_code (port : Ctx) : Ctx.ofCode port.code = some port := by cases port <;> decide

/-- The decoder accepts a word of a narrow block exactly when it is a legal word whose operand fits (R83). -/
theorem decodeFor_ok {tickW : Nat} {w : CmdWord} {i : Instr} :
    decodeFor tickW w = .ok i ↔ decode w = .ok i ∧ i.wellFormed tickW = true := by
  unfold decodeFor
  cases h : decode w with
  | error e => simp
  | ok j =>
    by_cases hj : j.wellFormed tickW = true
    · simp only [hj, if_true, Except.ok.injEq]
      constructor
      · intro hji; exact ⟨hji, hji ▸ hj⟩
      · intro hji; exact hji.1
    · simp only [hj, if_false, Except.ok.injEq, reduceCtorEq, false_iff, not_and]
      intro hji
      exact hji ▸ hj

end Sys2Proof
end

