-- ==== Sys2Proof/Laws/Memory.lean ====
section
/-! SUPPORT. The list form of `storage`: read after write, and the canonical form, which every write keeps and which
makes equal memories equal lists. -/

namespace Sys2Proof.Machine.Memory

@[simp] theorem read_nil (i : Nat) : read [] i = none := rfl

/-- Reading the slot that was written gives the byte written (R52). -/
@[simp] theorem read_write_same (m : List Host.Cell) (i : Nat) (v : Byte) : read (write m i v) i = some v := by
  induction m with
  | nil => simp [write, read]
  | cons cell rest ih =>
    obtain ⟨k, u⟩ := cell
    simp only [write]
    split
    · simp [read]
    · split
      · simp [read]
      · rename_i _ hne
        simp [read, Ne.symm hne, ih]

/-- A write changes no other slot (R52). -/
theorem read_write_other {i j : Nat} (hij : j ≠ i) (m : List Host.Cell) (v : Byte) :
    read (write m i v) j = read m j := by
  induction m with
  | nil => simp [write, read, Ne.symm hij]
  | cons cell rest ih =>
    obtain ⟨k, u⟩ := cell
    simp only [write]
    split
    · simp [read, Ne.symm hij]
    · split
      · rename_i _ hk
        subst hk
        simp [read, Ne.symm hij]
      · simp only [read, ih]

theorem read_write (m : List Host.Cell) (i j : Nat) (v : Byte) :
    read (write m i v) j = if j = i then some v else read m j := by
  split
  · rename_i h; subst h; simp
  · rename_i h; exact read_write_other h m v

theorem risesFrom_mono {low low' : Nat} (h : low' ≤ low) {m : List Host.Cell} (hm : risesFrom low m = true) :
    risesFrom low' m = true := by
  cases m with
  | nil => rfl
  | cons cell rest =>
    simp only [risesFrom, Bool.and_eq_true, decide_eq_true_eq] at hm ⊢
    exact ⟨by omega, hm.2⟩

theorem write_risesFrom (m : List Host.Cell) (low i : Nat) (v : Byte) (hlow : low ≤ i)
    (hm : risesFrom low m = true) : risesFrom low (write m i v) = true := by
  induction m generalizing low with
  | nil => simp [write, risesFrom, hlow]
  | cons cell rest ih =>
    obtain ⟨k, u⟩ := cell
    simp only [risesFrom, Bool.and_eq_true, decide_eq_true_eq] at hm
    simp only [write]
    split
    · simp only [risesFrom, Bool.and_eq_true, decide_eq_true_eq]
      exact ⟨hlow, by omega, hm.2⟩
    · split
      · rename_i _ hk
        subst hk
        simp only [risesFrom, Bool.and_eq_true, decide_eq_true_eq]
        exact ⟨hlow, hm.2⟩
      · simp only [risesFrom, Bool.and_eq_true, decide_eq_true_eq]
        exact ⟨hm.1, ih (k + 1) (by omega) hm.2⟩

@[simp] theorem wf_nil : wf [] = true := rfl

/-- The storage of a block right after reset is in canonical form. -/
theorem wf_reset : wf State.reset.storage = true := rfl

/-- Every write keeps the canonical form. -/
theorem wf_write {m : List Host.Cell} (hm : wf m = true) (i : Nat) (v : Byte) : wf (write m i v) = true :=
  write_risesFrom m 0 i v (Nat.zero_le i) hm

theorem read_eq_none_of_lt {m : List Host.Cell} {low i : Nat} (hm : risesFrom low m = true) (hi : i < low) :
    read m i = none := by
  induction m generalizing low with
  | nil => rfl
  | cons cell rest ih =>
    obtain ⟨k, u⟩ := cell
    simp only [risesFrom, Bool.and_eq_true, decide_eq_true_eq] at hm
    have hki : k ≠ i := by omega
    simp [read, hki, ih hm.2 (by omega)]

theorem ext_risesFrom {m n : List Host.Cell} {low : Nat} (hm : risesFrom low m = true) (hn : risesFrom low n = true)
    (h : ∀ i, read m i = read n i) : m = n := by
  induction m generalizing low n with
  | nil =>
    cases n with
    | nil => rfl
    | cons cell rest =>
      obtain ⟨k, u⟩ := cell
      have := h k
      simp [read] at this
  | cons cell rest ih =>
    obtain ⟨k, u⟩ := cell
    cases n with
    | nil =>
      have := h k
      simp [read] at this
    | cons cell' rest' =>
      obtain ⟨k', u'⟩ := cell'
      simp only [risesFrom, Bool.and_eq_true, decide_eq_true_eq] at hm hn
      have hk : k = k' := by
        rcases Nat.lt_trichotomy k k' with hlt | heq | hlt
        · have := h k
          have hne : k' ≠ k := by omega
          simp [read, hne, read_eq_none_of_lt hn.2 (by omega : k < k' + 1)] at this
        · exact heq
        · have := h k'
          have hne : k ≠ k' := by omega
          simp [read, hne, read_eq_none_of_lt hm.2 (by omega : k' < k + 1)] at this
      subst hk
      have hu : u = u' := by
        have := h k
        simpa [read] using this
      subst hu
      have hr : rest = rest' := by
        refine ih hm.2 hn.2 fun i => ?_
        rcases Nat.lt_or_ge i (k + 1) with hi | hi
        · rw [read_eq_none_of_lt hm.2 hi, read_eq_none_of_lt hn.2 hi]
        · have := h i
          have hne : k ≠ i := by omega
          simpa [read, hne] using this
      rw [hr]

/-- Two memories in canonical form that read alike are the same list. -/
theorem ext_of_wf {m n : List Host.Cell} (hm : wf m = true) (hn : wf n = true) (h : ∀ i, read m i = read n i) :
    m = n := ext_risesFrom hm hn h

/-- What a write can add to the list: the cell written. -/
theorem mem_write {m : List Host.Cell} {i : Nat} {v : Byte} {cell : Host.Cell} (h : cell ∈ write m i v) :
    cell = (i, v) ∨ cell ∈ m := by
  induction m with
  | nil => simpa [write] using h
  | cons head rest ih =>
    obtain ⟨k, u⟩ := head
    simp only [write] at h
    split at h
    · simpa using h
    · split at h
      · rcases List.mem_cons.1 h with h | h
        · exact .inl h
        · exact .inr (List.mem_cons_of_mem _ h)
      · rcases List.mem_cons.1 h with h | h
        · exact .inr (h ▸ List.mem_cons_self)
        · rcases ih h with h | h
          · exact .inl h
          · exact .inr (List.mem_cons_of_mem _ h)

end Sys2Proof.Machine.Memory
end

