-- ==== Sys2Proof/Laws/State.lean ====
section
/-! SUPPORT. One lemma for each field of State and each update of it, true by rfl, so that no proof unfolds a record
update. -/

namespace Sys2Proof.Machine

namespace State

@[simp] theorem setStorage_cfg (s : State) (m : List Host.Cell) : (s.setStorage m).cfg = s.cfg := rfl
@[simp] theorem setStorage_storage (s : State) (m : List Host.Cell) : (s.setStorage m).storage = m := rfl
@[simp] theorem setStorage_head (s : State) (m : List Host.Cell) : (s.setStorage m).head = s.head := rfl
@[simp] theorem setStorage_tail (s : State) (m : List Host.Cell) : (s.setStorage m).tail = s.tail := rfl
@[simp] theorem setStorage_overrunCount (s : State) (m : List Host.Cell) : (s.setStorage m).overrunCount = s.overrunCount := rfl
@[simp] theorem setStorage_totalReceivedCount (s : State) (m : List Host.Cell) : (s.setStorage m).totalReceivedCount = s.totalReceivedCount := rfl
@[simp] theorem setStorage_ticks (s : State) (m : List Host.Cell) : (s.setStorage m).ticks = s.ticks := rfl
@[simp] theorem setStorage_seq (s : State) (m : List Host.Cell) : (s.setStorage m).seq = s.seq := rfl
@[simp] theorem setStorage_con (s : State) (m : List Host.Cell) : (s.setStorage m).con = s.con := rfl
@[simp] theorem setStorage_env (s : State) (m : List Host.Cell) : (s.setStorage m).env = s.env := rfl
@[simp] theorem setStorage_rsp (s : State) (m : List Host.Cell) : (s.setStorage m).rsp = s.rsp := rfl

@[simp] theorem setHead_cfg (s : State) (v : Word) : (s.setHead v).cfg = s.cfg := rfl
@[simp] theorem setHead_storage (s : State) (v : Word) : (s.setHead v).storage = s.storage := rfl
@[simp] theorem setHead_head (s : State) (v : Word) : (s.setHead v).head = v := rfl
@[simp] theorem setHead_tail (s : State) (v : Word) : (s.setHead v).tail = s.tail := rfl
@[simp] theorem setHead_overrunCount (s : State) (v : Word) : (s.setHead v).overrunCount = s.overrunCount := rfl
@[simp] theorem setHead_totalReceivedCount (s : State) (v : Word) : (s.setHead v).totalReceivedCount = s.totalReceivedCount := rfl
@[simp] theorem setHead_ticks (s : State) (v : Word) : (s.setHead v).ticks = s.ticks := rfl
@[simp] theorem setHead_seq (s : State) (v : Word) : (s.setHead v).seq = s.seq := rfl
@[simp] theorem setHead_con (s : State) (v : Word) : (s.setHead v).con = s.con := rfl
@[simp] theorem setHead_env (s : State) (v : Word) : (s.setHead v).env = s.env := rfl
@[simp] theorem setHead_rsp (s : State) (v : Word) : (s.setHead v).rsp = s.rsp := rfl

@[simp] theorem setTail_cfg (s : State) (v : Word) : (s.setTail v).cfg = s.cfg := rfl
@[simp] theorem setTail_storage (s : State) (v : Word) : (s.setTail v).storage = s.storage := rfl
@[simp] theorem setTail_head (s : State) (v : Word) : (s.setTail v).head = s.head := rfl
@[simp] theorem setTail_tail (s : State) (v : Word) : (s.setTail v).tail = v := rfl
@[simp] theorem setTail_overrunCount (s : State) (v : Word) : (s.setTail v).overrunCount = s.overrunCount := rfl
@[simp] theorem setTail_totalReceivedCount (s : State) (v : Word) : (s.setTail v).totalReceivedCount = s.totalReceivedCount := rfl
@[simp] theorem setTail_ticks (s : State) (v : Word) : (s.setTail v).ticks = s.ticks := rfl
@[simp] theorem setTail_seq (s : State) (v : Word) : (s.setTail v).seq = s.seq := rfl
@[simp] theorem setTail_con (s : State) (v : Word) : (s.setTail v).con = s.con := rfl
@[simp] theorem setTail_env (s : State) (v : Word) : (s.setTail v).env = s.env := rfl
@[simp] theorem setTail_rsp (s : State) (v : Word) : (s.setTail v).rsp = s.rsp := rfl

@[simp] theorem setOverrunCount_cfg (s : State) (v : Word) : (s.setOverrunCount v).cfg = s.cfg := rfl
@[simp] theorem setOverrunCount_storage (s : State) (v : Word) : (s.setOverrunCount v).storage = s.storage := rfl
@[simp] theorem setOverrunCount_head (s : State) (v : Word) : (s.setOverrunCount v).head = s.head := rfl
@[simp] theorem setOverrunCount_tail (s : State) (v : Word) : (s.setOverrunCount v).tail = s.tail := rfl
@[simp] theorem setOverrunCount_overrunCount (s : State) (v : Word) : (s.setOverrunCount v).overrunCount = v := rfl
@[simp] theorem setOverrunCount_totalReceivedCount (s : State) (v : Word) : (s.setOverrunCount v).totalReceivedCount = s.totalReceivedCount := rfl
@[simp] theorem setOverrunCount_ticks (s : State) (v : Word) : (s.setOverrunCount v).ticks = s.ticks := rfl
@[simp] theorem setOverrunCount_seq (s : State) (v : Word) : (s.setOverrunCount v).seq = s.seq := rfl
@[simp] theorem setOverrunCount_con (s : State) (v : Word) : (s.setOverrunCount v).con = s.con := rfl
@[simp] theorem setOverrunCount_env (s : State) (v : Word) : (s.setOverrunCount v).env = s.env := rfl
@[simp] theorem setOverrunCount_rsp (s : State) (v : Word) : (s.setOverrunCount v).rsp = s.rsp := rfl

@[simp] theorem setTotalReceivedCount_cfg (s : State) (v : Word) : (s.setTotalReceivedCount v).cfg = s.cfg := rfl
@[simp] theorem setTotalReceivedCount_storage (s : State) (v : Word) : (s.setTotalReceivedCount v).storage = s.storage := rfl
@[simp] theorem setTotalReceivedCount_head (s : State) (v : Word) : (s.setTotalReceivedCount v).head = s.head := rfl
@[simp] theorem setTotalReceivedCount_tail (s : State) (v : Word) : (s.setTotalReceivedCount v).tail = s.tail := rfl
@[simp] theorem setTotalReceivedCount_overrunCount (s : State) (v : Word) : (s.setTotalReceivedCount v).overrunCount = s.overrunCount := rfl
@[simp] theorem setTotalReceivedCount_totalReceivedCount (s : State) (v : Word) : (s.setTotalReceivedCount v).totalReceivedCount = v := rfl
@[simp] theorem setTotalReceivedCount_ticks (s : State) (v : Word) : (s.setTotalReceivedCount v).ticks = s.ticks := rfl
@[simp] theorem setTotalReceivedCount_seq (s : State) (v : Word) : (s.setTotalReceivedCount v).seq = s.seq := rfl
@[simp] theorem setTotalReceivedCount_con (s : State) (v : Word) : (s.setTotalReceivedCount v).con = s.con := rfl
@[simp] theorem setTotalReceivedCount_env (s : State) (v : Word) : (s.setTotalReceivedCount v).env = s.env := rfl
@[simp] theorem setTotalReceivedCount_rsp (s : State) (v : Word) : (s.setTotalReceivedCount v).rsp = s.rsp := rfl

@[simp] theorem setTicks_cfg (s : State) (v : Word) : (s.setTicks v).cfg = s.cfg := rfl
@[simp] theorem setTicks_storage (s : State) (v : Word) : (s.setTicks v).storage = s.storage := rfl
@[simp] theorem setTicks_head (s : State) (v : Word) : (s.setTicks v).head = s.head := rfl
@[simp] theorem setTicks_tail (s : State) (v : Word) : (s.setTicks v).tail = s.tail := rfl
@[simp] theorem setTicks_overrunCount (s : State) (v : Word) : (s.setTicks v).overrunCount = s.overrunCount := rfl
@[simp] theorem setTicks_totalReceivedCount (s : State) (v : Word) : (s.setTicks v).totalReceivedCount = s.totalReceivedCount := rfl
@[simp] theorem setTicks_ticks (s : State) (v : Word) : (s.setTicks v).ticks = v := rfl
@[simp] theorem setTicks_seq (s : State) (v : Word) : (s.setTicks v).seq = s.seq := rfl
@[simp] theorem setTicks_con (s : State) (v : Word) : (s.setTicks v).con = s.con := rfl
@[simp] theorem setTicks_env (s : State) (v : Word) : (s.setTicks v).env = s.env := rfl
@[simp] theorem setTicks_rsp (s : State) (v : Word) : (s.setTicks v).rsp = s.rsp := rfl

@[simp] theorem setSeq_cfg (s : State) (q : Seq) : (s.setSeq q).cfg = s.cfg := rfl
@[simp] theorem setSeq_storage (s : State) (q : Seq) : (s.setSeq q).storage = s.storage := rfl
@[simp] theorem setSeq_head (s : State) (q : Seq) : (s.setSeq q).head = s.head := rfl
@[simp] theorem setSeq_tail (s : State) (q : Seq) : (s.setSeq q).tail = s.tail := rfl
@[simp] theorem setSeq_overrunCount (s : State) (q : Seq) : (s.setSeq q).overrunCount = s.overrunCount := rfl
@[simp] theorem setSeq_totalReceivedCount (s : State) (q : Seq) : (s.setSeq q).totalReceivedCount = s.totalReceivedCount := rfl
@[simp] theorem setSeq_ticks (s : State) (q : Seq) : (s.setSeq q).ticks = s.ticks := rfl
@[simp] theorem setSeq_seq (s : State) (q : Seq) : (s.setSeq q).seq = q := rfl
@[simp] theorem setSeq_con (s : State) (q : Seq) : (s.setSeq q).con = s.con := rfl
@[simp] theorem setSeq_env (s : State) (q : Seq) : (s.setSeq q).env = s.env := rfl
@[simp] theorem setSeq_rsp (s : State) (q : Seq) : (s.setSeq q).rsp = s.rsp := rfl

@[simp] theorem setCon_cfg (s : State) (k : Console) : (s.setCon k).cfg = s.cfg := rfl
@[simp] theorem setCon_storage (s : State) (k : Console) : (s.setCon k).storage = s.storage := rfl
@[simp] theorem setCon_head (s : State) (k : Console) : (s.setCon k).head = s.head := rfl
@[simp] theorem setCon_tail (s : State) (k : Console) : (s.setCon k).tail = s.tail := rfl
@[simp] theorem setCon_overrunCount (s : State) (k : Console) : (s.setCon k).overrunCount = s.overrunCount := rfl
@[simp] theorem setCon_totalReceivedCount (s : State) (k : Console) : (s.setCon k).totalReceivedCount = s.totalReceivedCount := rfl
@[simp] theorem setCon_ticks (s : State) (k : Console) : (s.setCon k).ticks = s.ticks := rfl
@[simp] theorem setCon_seq (s : State) (k : Console) : (s.setCon k).seq = s.seq := rfl
@[simp] theorem setCon_con (s : State) (k : Console) : (s.setCon k).con = k := rfl
@[simp] theorem setCon_env (s : State) (k : Console) : (s.setCon k).env = s.env := rfl
@[simp] theorem setCon_rsp (s : State) (k : Console) : (s.setCon k).rsp = s.rsp := rfl

@[simp] theorem setEnv_cfg (s : State) (e : Env) : (s.setEnv e).cfg = s.cfg := rfl
@[simp] theorem setEnv_storage (s : State) (e : Env) : (s.setEnv e).storage = s.storage := rfl
@[simp] theorem setEnv_head (s : State) (e : Env) : (s.setEnv e).head = s.head := rfl
@[simp] theorem setEnv_tail (s : State) (e : Env) : (s.setEnv e).tail = s.tail := rfl
@[simp] theorem setEnv_overrunCount (s : State) (e : Env) : (s.setEnv e).overrunCount = s.overrunCount := rfl
@[simp] theorem setEnv_totalReceivedCount (s : State) (e : Env) : (s.setEnv e).totalReceivedCount = s.totalReceivedCount := rfl
@[simp] theorem setEnv_ticks (s : State) (e : Env) : (s.setEnv e).ticks = s.ticks := rfl
@[simp] theorem setEnv_seq (s : State) (e : Env) : (s.setEnv e).seq = s.seq := rfl
@[simp] theorem setEnv_con (s : State) (e : Env) : (s.setEnv e).con = s.con := rfl
@[simp] theorem setEnv_env (s : State) (e : Env) : (s.setEnv e).env = e := rfl
@[simp] theorem setEnv_rsp (s : State) (e : Env) : (s.setEnv e).rsp = s.rsp := rfl

@[simp] theorem setRsp_cfg (s : State) (r : Responses) : (s.setRsp r).cfg = s.cfg := rfl
@[simp] theorem setRsp_storage (s : State) (r : Responses) : (s.setRsp r).storage = s.storage := rfl
@[simp] theorem setRsp_head (s : State) (r : Responses) : (s.setRsp r).head = s.head := rfl
@[simp] theorem setRsp_tail (s : State) (r : Responses) : (s.setRsp r).tail = s.tail := rfl
@[simp] theorem setRsp_overrunCount (s : State) (r : Responses) : (s.setRsp r).overrunCount = s.overrunCount := rfl
@[simp] theorem setRsp_totalReceivedCount (s : State) (r : Responses) : (s.setRsp r).totalReceivedCount = s.totalReceivedCount := rfl
@[simp] theorem setRsp_ticks (s : State) (r : Responses) : (s.setRsp r).ticks = s.ticks := rfl
@[simp] theorem setRsp_seq (s : State) (r : Responses) : (s.setRsp r).seq = s.seq := rfl
@[simp] theorem setRsp_con (s : State) (r : Responses) : (s.setRsp r).con = s.con := rfl
@[simp] theorem setRsp_env (s : State) (r : Responses) : (s.setRsp r).env = s.env := rfl
@[simp] theorem setRsp_rsp (s : State) (r : Responses) : (s.setRsp r).rsp = r := rfl

@[simp] theorem respond_cfg (s : State) (port : Ctx) (r : Response) : (s.respond port r).cfg = s.cfg := rfl
@[simp] theorem respond_storage (s : State) (port : Ctx) (r : Response) : (s.respond port r).storage = s.storage := rfl
@[simp] theorem respond_head (s : State) (port : Ctx) (r : Response) : (s.respond port r).head = s.head := rfl
@[simp] theorem respond_tail (s : State) (port : Ctx) (r : Response) : (s.respond port r).tail = s.tail := rfl
@[simp] theorem respond_overrunCount (s : State) (port : Ctx) (r : Response) : (s.respond port r).overrunCount = s.overrunCount := rfl
@[simp] theorem respond_totalReceivedCount (s : State) (port : Ctx) (r : Response) : (s.respond port r).totalReceivedCount = s.totalReceivedCount := rfl
@[simp] theorem respond_ticks (s : State) (port : Ctx) (r : Response) : (s.respond port r).ticks = s.ticks := rfl
@[simp] theorem respond_seq (s : State) (port : Ctx) (r : Response) : (s.respond port r).seq = s.seq := rfl
@[simp] theorem respond_con (s : State) (port : Ctx) (r : Response) : (s.respond port r).con = s.con := rfl
@[simp] theorem respond_env (s : State) (port : Ctx) (r : Response) : (s.respond port r).env = s.env := rfl
@[simp] theorem respond_rsp (s : State) (port : Ctx) (r : Response) : (s.respond port r).rsp = s.rsp.add port r := rfl

@[simp] theorem setProg_cfg (s : State) (p : ProgPos) : (s.setProg p).cfg = s.cfg := rfl
@[simp] theorem setProg_storage (s : State) (p : ProgPos) : (s.setProg p).storage = s.storage := rfl
@[simp] theorem setProg_head (s : State) (p : ProgPos) : (s.setProg p).head = s.head := rfl
@[simp] theorem setProg_tail (s : State) (p : ProgPos) : (s.setProg p).tail = s.tail := rfl
@[simp] theorem setProg_overrunCount (s : State) (p : ProgPos) : (s.setProg p).overrunCount = s.overrunCount := rfl
@[simp] theorem setProg_totalReceivedCount (s : State) (p : ProgPos) : (s.setProg p).totalReceivedCount = s.totalReceivedCount := rfl
@[simp] theorem setProg_ticks (s : State) (p : ProgPos) : (s.setProg p).ticks = s.ticks := rfl
@[simp] theorem setProg_seq (s : State) (p : ProgPos) : (s.setProg p).seq = s.seq := rfl
@[simp] theorem setProg_env (s : State) (p : ProgPos) : (s.setProg p).env = s.env := rfl
@[simp] theorem setProg_rsp (s : State) (p : ProgPos) : (s.setProg p).rsp = s.rsp := rfl

@[simp] theorem setSession_cfg (s : State) (v : SessionState) : (s.setSession v).cfg = s.cfg := rfl
@[simp] theorem setSession_storage (s : State) (v : SessionState) : (s.setSession v).storage = s.storage := rfl
@[simp] theorem setSession_head (s : State) (v : SessionState) : (s.setSession v).head = s.head := rfl
@[simp] theorem setSession_tail (s : State) (v : SessionState) : (s.setSession v).tail = s.tail := rfl
@[simp] theorem setSession_overrunCount (s : State) (v : SessionState) : (s.setSession v).overrunCount = s.overrunCount := rfl
@[simp] theorem setSession_totalReceivedCount (s : State) (v : SessionState) : (s.setSession v).totalReceivedCount = s.totalReceivedCount := rfl
@[simp] theorem setSession_ticks (s : State) (v : SessionState) : (s.setSession v).ticks = s.ticks := rfl
@[simp] theorem setSession_seq (s : State) (v : SessionState) : (s.setSession v).seq = s.seq := rfl
@[simp] theorem setSession_env (s : State) (v : SessionState) : (s.setSession v).env = s.env := rfl
@[simp] theorem setSession_rsp (s : State) (v : SessionState) : (s.setSession v).rsp = s.rsp := rfl

@[simp] theorem setLastReportTick_cfg (s : State) (v : Word) : (s.setLastReportTick v).cfg = s.cfg := rfl
@[simp] theorem setLastReportTick_storage (s : State) (v : Word) : (s.setLastReportTick v).storage = s.storage := rfl
@[simp] theorem setLastReportTick_head (s : State) (v : Word) : (s.setLastReportTick v).head = s.head := rfl
@[simp] theorem setLastReportTick_tail (s : State) (v : Word) : (s.setLastReportTick v).tail = s.tail := rfl
@[simp] theorem setLastReportTick_overrunCount (s : State) (v : Word) : (s.setLastReportTick v).overrunCount = s.overrunCount := rfl
@[simp] theorem setLastReportTick_totalReceivedCount (s : State) (v : Word) : (s.setLastReportTick v).totalReceivedCount = s.totalReceivedCount := rfl
@[simp] theorem setLastReportTick_ticks (s : State) (v : Word) : (s.setLastReportTick v).ticks = s.ticks := rfl
@[simp] theorem setLastReportTick_seq (s : State) (v : Word) : (s.setLastReportTick v).seq = s.seq := rfl
@[simp] theorem setLastReportTick_env (s : State) (v : Word) : (s.setLastReportTick v).env = s.env := rfl
@[simp] theorem setLastReportTick_rsp (s : State) (v : Word) : (s.setLastReportTick v).rsp = s.rsp := rfl

@[simp] theorem emit_cfg (s : State) (x : SinkItem) : (s.emit x).cfg = s.cfg := rfl
@[simp] theorem emit_storage (s : State) (x : SinkItem) : (s.emit x).storage = s.storage := rfl
@[simp] theorem emit_head (s : State) (x : SinkItem) : (s.emit x).head = s.head := rfl
@[simp] theorem emit_tail (s : State) (x : SinkItem) : (s.emit x).tail = s.tail := rfl
@[simp] theorem emit_overrunCount (s : State) (x : SinkItem) : (s.emit x).overrunCount = s.overrunCount := rfl
@[simp] theorem emit_totalReceivedCount (s : State) (x : SinkItem) : (s.emit x).totalReceivedCount = s.totalReceivedCount := rfl
@[simp] theorem emit_ticks (s : State) (x : SinkItem) : (s.emit x).ticks = s.ticks := rfl
@[simp] theorem emit_seq (s : State) (x : SinkItem) : (s.emit x).seq = s.seq := rfl
@[simp] theorem emit_env (s : State) (x : SinkItem) : (s.emit x).env = s.env := rfl
@[simp] theorem emit_rsp (s : State) (x : SinkItem) : (s.emit x).rsp = s.rsp := rfl

@[simp] theorem setDrained_cfg (s : State) (l : List Byte) : (s.setDrained l).cfg = s.cfg := rfl
@[simp] theorem setDrained_storage (s : State) (l : List Byte) : (s.setDrained l).storage = s.storage := rfl
@[simp] theorem setDrained_head (s : State) (l : List Byte) : (s.setDrained l).head = s.head := rfl
@[simp] theorem setDrained_tail (s : State) (l : List Byte) : (s.setDrained l).tail = s.tail := rfl
@[simp] theorem setDrained_overrunCount (s : State) (l : List Byte) : (s.setDrained l).overrunCount = s.overrunCount := rfl
@[simp] theorem setDrained_totalReceivedCount (s : State) (l : List Byte) : (s.setDrained l).totalReceivedCount = s.totalReceivedCount := rfl
@[simp] theorem setDrained_ticks (s : State) (l : List Byte) : (s.setDrained l).ticks = s.ticks := rfl
@[simp] theorem setDrained_seq (s : State) (l : List Byte) : (s.setDrained l).seq = s.seq := rfl
@[simp] theorem setDrained_env (s : State) (l : List Byte) : (s.setDrained l).env = s.env := rfl
@[simp] theorem setDrained_rsp (s : State) (l : List Byte) : (s.setDrained l).rsp = s.rsp := rfl

@[simp] theorem setSched_cfg (s : State) (l : List Ctx) : (s.setSched l).cfg = s.cfg := rfl
@[simp] theorem setSched_storage (s : State) (l : List Ctx) : (s.setSched l).storage = s.storage := rfl
@[simp] theorem setSched_head (s : State) (l : List Ctx) : (s.setSched l).head = s.head := rfl
@[simp] theorem setSched_tail (s : State) (l : List Ctx) : (s.setSched l).tail = s.tail := rfl
@[simp] theorem setSched_overrunCount (s : State) (l : List Ctx) : (s.setSched l).overrunCount = s.overrunCount := rfl
@[simp] theorem setSched_totalReceivedCount (s : State) (l : List Ctx) : (s.setSched l).totalReceivedCount = s.totalReceivedCount := rfl
@[simp] theorem setSched_ticks (s : State) (l : List Ctx) : (s.setSched l).ticks = s.ticks := rfl
@[simp] theorem setSched_seq (s : State) (l : List Ctx) : (s.setSched l).seq = s.seq := rfl
@[simp] theorem setSched_con (s : State) (l : List Ctx) : (s.setSched l).con = s.con := rfl
@[simp] theorem setSched_rsp (s : State) (l : List Ctx) : (s.setSched l).rsp = s.rsp := rfl

@[simp] theorem setTasks_cfg (s : State) (l : List Task) : (s.setTasks l).cfg = s.cfg := rfl
@[simp] theorem setTasks_storage (s : State) (l : List Task) : (s.setTasks l).storage = s.storage := rfl
@[simp] theorem setTasks_head (s : State) (l : List Task) : (s.setTasks l).head = s.head := rfl
@[simp] theorem setTasks_tail (s : State) (l : List Task) : (s.setTasks l).tail = s.tail := rfl
@[simp] theorem setTasks_overrunCount (s : State) (l : List Task) : (s.setTasks l).overrunCount = s.overrunCount := rfl
@[simp] theorem setTasks_totalReceivedCount (s : State) (l : List Task) : (s.setTasks l).totalReceivedCount = s.totalReceivedCount := rfl
@[simp] theorem setTasks_ticks (s : State) (l : List Task) : (s.setTasks l).ticks = s.ticks := rfl
@[simp] theorem setTasks_seq (s : State) (l : List Task) : (s.setTasks l).seq = s.seq := rfl
@[simp] theorem setTasks_con (s : State) (l : List Task) : (s.setTasks l).con = s.con := rfl
@[simp] theorem setTasks_rsp (s : State) (l : List Task) : (s.setTasks l).rsp = s.rsp := rfl

@[simp] theorem setReqP_cfg (s : State) (l : List Request) : (s.setReqP l).cfg = s.cfg := rfl
@[simp] theorem setReqP_storage (s : State) (l : List Request) : (s.setReqP l).storage = s.storage := rfl
@[simp] theorem setReqP_head (s : State) (l : List Request) : (s.setReqP l).head = s.head := rfl
@[simp] theorem setReqP_tail (s : State) (l : List Request) : (s.setReqP l).tail = s.tail := rfl
@[simp] theorem setReqP_overrunCount (s : State) (l : List Request) : (s.setReqP l).overrunCount = s.overrunCount := rfl
@[simp] theorem setReqP_totalReceivedCount (s : State) (l : List Request) : (s.setReqP l).totalReceivedCount = s.totalReceivedCount := rfl
@[simp] theorem setReqP_ticks (s : State) (l : List Request) : (s.setReqP l).ticks = s.ticks := rfl
@[simp] theorem setReqP_seq (s : State) (l : List Request) : (s.setReqP l).seq = s.seq := rfl
@[simp] theorem setReqP_con (s : State) (l : List Request) : (s.setReqP l).con = s.con := rfl
@[simp] theorem setReqP_rsp (s : State) (l : List Request) : (s.setReqP l).rsp = s.rsp := rfl

@[simp] theorem setReqT_cfg (s : State) (l : List Request) : (s.setReqT l).cfg = s.cfg := rfl
@[simp] theorem setReqT_storage (s : State) (l : List Request) : (s.setReqT l).storage = s.storage := rfl
@[simp] theorem setReqT_head (s : State) (l : List Request) : (s.setReqT l).head = s.head := rfl
@[simp] theorem setReqT_tail (s : State) (l : List Request) : (s.setReqT l).tail = s.tail := rfl
@[simp] theorem setReqT_overrunCount (s : State) (l : List Request) : (s.setReqT l).overrunCount = s.overrunCount := rfl
@[simp] theorem setReqT_totalReceivedCount (s : State) (l : List Request) : (s.setReqT l).totalReceivedCount = s.totalReceivedCount := rfl
@[simp] theorem setReqT_ticks (s : State) (l : List Request) : (s.setReqT l).ticks = s.ticks := rfl
@[simp] theorem setReqT_seq (s : State) (l : List Request) : (s.setReqT l).seq = s.seq := rfl
@[simp] theorem setReqT_con (s : State) (l : List Request) : (s.setReqT l).con = s.con := rfl
@[simp] theorem setReqT_rsp (s : State) (l : List Request) : (s.setReqT l).rsp = s.rsp := rfl

@[simp] theorem setSched_env (s : State) (l : List Ctx) : (s.setSched l).env = { s.env with sched := l } := rfl
@[simp] theorem setTasks_env (s : State) (l : List Task) : (s.setTasks l).env = { s.env with tasks := l } := rfl
@[simp] theorem setReqP_env (s : State) (l : List Request) : (s.setReqP l).env = { s.env with reqP := l } := rfl
@[simp] theorem setReqT_env (s : State) (l : List Request) : (s.setReqT l).env = { s.env with reqT := l } := rfl

@[simp] theorem setProg_con (s : State) (p : ProgPos) : (s.setProg p).con = { s.con with prog := p } := rfl
@[simp] theorem setSession_con (s : State) (v : SessionState) : (s.setSession v).con = { s.con with sessionState := v } := rfl
@[simp] theorem setLastReportTick_con (s : State) (v : Word) :
    (s.setLastReportTick v).con = { s.con with lastReportTick := v } := rfl
@[simp] theorem emit_con (s : State) (x : SinkItem) : (s.emit x).con = { s.con with sink := x :: s.con.sink } := rfl
@[simp] theorem setDrained_con (s : State) (l : List Byte) :
    (s.setDrained l).con = { s.con with drained := l, prog := .rest } := rfl

end State

namespace Responses

@[simp] theorem add_c_c (r : Responses) (x : Response) : (r.add .c x).c = x :: r.c := rfl
@[simp] theorem add_c_p (r : Responses) (x : Response) : (r.add .c x).p = r.p := rfl
@[simp] theorem add_c_t (r : Responses) (x : Response) : (r.add .c x).t = r.t := rfl
@[simp] theorem add_p_c (r : Responses) (x : Response) : (r.add .p x).c = r.c := rfl
@[simp] theorem add_p_p (r : Responses) (x : Response) : (r.add .p x).p = x :: r.p := rfl
@[simp] theorem add_p_t (r : Responses) (x : Response) : (r.add .p x).t = r.t := rfl
@[simp] theorem add_t_c (r : Responses) (x : Response) : (r.add .t x).c = r.c := rfl
@[simp] theorem add_t_p (r : Responses) (x : Response) : (r.add .t x).p = r.p := rfl
@[simp] theorem add_t_t (r : Responses) (x : Response) : (r.add .t x).t = x :: r.t := rfl

end Responses

end Sys2Proof.Machine
end

