-- ==== Sys2Proof/Laws/Ops.lean ====
section
/-! SUPPORT. For each shared operation, once, everything it can do. -/

namespace Sys2Proof.Machine

/-- A read that succeeds is of a slot of the array that holds the byte. -/
theorem memRead_ok {s : State} {i : Word} {b : Byte} (h : memRead s i = .ok b) :
    s.hasSlot i = true ∧ s.slot i = some b := by
  unfold memRead at h
  split at h
  · rename_i hi
    split at h
    · rename_i b' hb
      simp only [Except.ok.injEq] at h
      exact ⟨hi, h ▸ hb⟩
    · simp at h
  · simp at h

theorem memRead_of_slot {s : State} {i : Word} {b : Byte} (hi : s.hasSlot i = true) (hb : s.slot i = some b) :
    memRead s i = .ok b := by
  simp [memRead, hi, hb]

/-- A write that succeeds is of a slot of the array and changes `storage` alone. -/
theorem memWrite_ok {s t : State} {i : Word} {v : Byte} (h : memWrite s i v = .ok t) :
    s.hasSlot i = true ∧ t = s.setStorage (Memory.write s.storage i.toNat v) := by
  unfold memWrite at h
  split at h
  · rename_i hi
    simp only [Except.ok.injEq] at h
    exact ⟨hi, h.symm⟩
  · simp at h

theorem memWrite_of_hasSlot {s : State} {i : Word} (hi : s.hasSlot i = true) (v : Byte) :
    memWrite s i v = .ok (s.setStorage (Memory.write s.storage i.toNat v)) := by
  simp [memWrite, hi]

/-- After a write the slot written holds the byte and every other slot is as before (R52). -/
theorem slot_setStorage_write (s : State) (i j : Word) (v : Byte) :
    (s.setStorage (Memory.write s.storage i.toNat v)).slot j = if j = i then some v else s.slot j := by
  simp only [State.slot, State.setStorage_storage, Memory.read_write, BitVec.toNat_inj]

/-- `accept`, `continueAt` and `finish` answer a next state, and this one. -/
@[simp] theorem accept_eq (q : Seq) (s : State) : accept q s = .next (s.setSeq q) := rfl

@[simp] theorem continueAt_eq (q : Seq) (s : State) : continueAt q s = .next (s.setSeq q) := rfl

@[simp] theorem finish_eq (r : Response) (s : State) : finish r s = .next ((s.setSeq .idle).respond .c r) := rfl

@[simp] theorem portBusy_eq (s : State) : portBusy s = .next s := rfl

/-- What a presented word does: the decoded operation, or the answer ILLEGAL (R89, R92). -/
theorem present_cases (port : Ctx) (x : Request) (s : State) :
    (∃ i, decodeFor s.cfg.tickW (port.drive x) = .ok i ∧ present port x s = exec i s) ∨
    (∃ e, decodeFor s.cfg.tickW (port.drive x) = .error e ∧ present port x s = .next (s.respond port illegalRsp)) := by
  unfold present
  cases h : decodeFor s.cfg.tickW (port.drive x) with
  | error e => exact .inr ⟨e, rfl, rfl⟩
  | ok i => exact .inl ⟨i, rfl, rfl⟩

theorem present_of_decode {port : Ctx} {x : Request} {s : State} {i : Instr}
    (h : decodeFor s.cfg.tickW (port.drive x) = .ok i) : present port x s = exec i s := by
  simp [present, h]

theorem present_of_illegal {port : Ctx} {x : Request} {s : State} {e : Illegal}
    (h : decodeFor s.cfg.tickW (port.drive x) = .error e) : present port x s = .next (s.respond port illegalRsp) := by
  simp [present, h, raiseIllegal]

/-- What PUSH can do: drop the byte and count it, store it, or fault on an index that names no slot. -/
theorem execPush_cases (b : Byte) (s : State) :
    (cursorSucc s.mask s.head = s.tail ∧
      execPush b s = .next (((s.setOverrunCount (satIncN s.cfg.cntW s.overrunCount)).setTotalReceivedCount
        (addN s.cfg.cntW s.totalReceivedCount 1)).respond .p fullRsp)) ∨
    (cursorSucc s.mask s.head ≠ s.tail ∧ s.hasSlot s.head = true ∧
      execPush b s = .next ((((s.setStorage (Memory.write s.storage s.head.toNat b)).setHead
        (cursorSucc s.mask s.head)).setTotalReceivedCount (addN s.cfg.cntW s.totalReceivedCount 1)).respond .p okDone)) ∨
    (cursorSucc s.mask s.head ≠ s.tail ∧ s.hasSlot s.head = false ∧ execPush b s = .fault (.noSuchSlot s.head)) := by
  unfold execPush
  by_cases hf : cursorSucc s.mask s.head = s.tail
  · exact .inl ⟨hf, by simp [hf]⟩
  · by_cases hs : s.hasSlot s.head = true
    · exact .inr (.inl ⟨hf, hs, by simp [hf, memWrite, hs]⟩)
    · have hs' : s.hasSlot s.head = false := by simpa using hs
      exact .inr (.inr ⟨hf, hs', by simp [hf, memWrite, hs']⟩)

end Sys2Proof.Machine
end

