-- ==== Sys2Proof/Laws/PerInstr.lean ====
section
/-! SUPPORT. Statements made operation by operation. -/

namespace Sys2Proof.Laws

/-- `EncodesFields`: the encoded word of an operation carries its context, its opcode and its operand in the three
fields of R81. -/
def EncodesFields.Statement (i : Instr) : Prop :=
  CmdWord.ctx (encode i) = i.ctx.code ∧ CmdWord.opcode (encode i) = i.opcode ∧ CmdWord.operand (encode i) = i.operand

theorem EncodesFields.push (imm8 : Byte) : EncodesFields.Statement (.push imm8) := by
  simp [EncodesFields.Statement, encode]

theorem EncodesFields.pop : EncodesFields.Statement .pop := by
  simp [EncodesFields.Statement, encode]

theorem EncodesFields.avail (q : QueryCtx) : EncodesFields.Statement (.avail q) := by
  simp [EncodesFields.Statement, encode]

theorem EncodesFields.flush : EncodesFields.Statement .flush := by
  simp [EncodesFields.Statement, encode]

theorem EncodesFields.rdovr (q : QueryCtx) : EncodesFields.Statement (.rdovr q) := by
  simp [EncodesFields.Statement, encode]

theorem EncodesFields.rdtot (q : QueryCtx) : EncodesFields.Statement (.rdtot q) := by
  simp [EncodesFields.Statement, encode]

theorem EncodesFields.tick : EncodesFields.Statement .tick := by
  simp [EncodesFields.Statement, encode]

theorem EncodesFields.now (q : QueryCtx) : EncodesFields.Statement (.now q) := by
  simp [EncodesFields.Statement, encode]

theorem EncodesFields.delay (imm32 : Word) : EncodesFields.Statement (.delay imm32) := by
  simp [EncodesFields.Statement, encode]

theorem EncodesFields.elapsed (q : QueryCtx) (imm32 : Word) : EncodesFields.Statement (.elapsed q imm32) := by
  simp [EncodesFields.Statement, encode]

end Sys2Proof.Laws
end

