-- ==== Sys2Proof/Tests/Slice0.lean ====
section
/-! SUPPORT. The model's own tests. The expected values are those of `spec/95_test_vectors.md`, whose sections are named
beside each test. Then, for every statement that has hypotheses, witnesses: concrete states and operands that meet all
of them together, one for each clause. -/

namespace Sys2Proof.Tests

open Sys2Proof Sys2Proof.Machine

/-! ### Small states -/

/-- `CAPACITY = 2^(k + 1)`, the cursors, and the slots that hold a value. -/
def blk (k : Fin 31) (head tail : Word) (cells : List Host.Cell) : State :=
  { State.construct { Config.example8 with capExpPred := k } with storage := cells, head := head, tail := tail }

/-- A full buffer of four slots. -/
def full4 : State := blk 1 3 0 [(0, 10), (1, 20), (2, 30)]

/-- Four slots, two bytes held, the second beyond the wrap. -/
def wrapped4 : State := blk 1 1 3 [(0, 40), (3, 30)]

/-- An empty buffer of four slots, at its highest index. -/
def empty4 : State := blk 1 3 3 [(0, 10), (1, 20), (2, 30)]

/-- A tick counter of eight bits at 250. -/
def narrow : State := { State.construct { Config.example8 with tickWPred := 7, reportInterval := 100 } with ticks := 250 }

/-- Part of the next state of an outcome. -/
def look {α : Type} (o : Host.Outcome State Fault Refusal) (f : State → α) : Option α :=
  match o with
  | .next t => some (f t)
  | .fault _ => none
  | .refused _ => none

/-- The outcome is a next state. -/
def goesOn (o : Host.Outcome State Fault Refusal) : Bool := (look o fun _ => ()).isSome

theorem next_of_goesOn {o : Host.Outcome State Fault Refusal} (h : goesOn o = true) : ∃ t, o = .next t := by
  cases o with
  | next t => exact ⟨t, rfl⟩
  | fault r => cases h
  | refused r => cases h

/-- The invariant as a check. -/
def checkInv (s : State) : Bool :=
  s.cfg.legal && Memory.wf s.storage && s.slotsExist && s.inRange s.head && s.inRange s.tail &&
    fits s.cfg.cntW s.overrunCount && fits s.cfg.cntW s.totalReceivedCount && fits s.cfg.tickW s.ticks &&
    s.heldWritten && s.seqOk && fits s.cfg.tickW s.con.lastReportTick

theorem inv_of_check {s : State} (h : checkInv s = true) : s.Inv := by
  simp only [checkInv, Bool.and_eq_true] at h
  obtain ⟨⟨⟨⟨⟨⟨⟨⟨⟨⟨h1, h2⟩, h3⟩, h4⟩, h5⟩, h6⟩, h7⟩, h8⟩, h9⟩, h10⟩, h11⟩ := h
  exact ⟨h1, h2, h3, h4, h5, h6, h7, h8, h9, h10, h11⟩

/-! ### WellFormed (R83) -/

theorem test_wellFormed_delay_refused : (Instr.delay 0x100).wellFormed 8 = false := by decide
theorem test_wellFormed_delay_kept : (Instr.delay 0xFF).wellFormed 8 = true := by decide
theorem test_wellFormed_elapsed_refused : (Instr.elapsed .c 0x80000000).wellFormed 31 = false := by decide
theorem test_wellFormed_elapsed_kept : (Instr.elapsed .p 0xFFFFFFFF).wellFormed 32 = true := by decide
theorem test_decodeFor_narrow_refused : decodeFor 8 0x0A00000100 = .error (.operandTooWide 0x100) := by decide

/-! ### Decode (`spec/95_test_vectors.md` 2.1) -/

theorem test_decode_push : decode 0x4100000041 = .ok (.push 0x41) := by decide
theorem test_decode_push_zero : decode 0x4100000000 = .ok (.push 0x00) := by decide
theorem test_decode_push_top : decode 0x41000000FF = .ok (.push 0xFF) := by decide
theorem test_decode_pop : decode 0x0200000000 = .ok (.pop) := by decide
theorem test_decode_avail_c : decode 0x0300000000 = .ok (.avail .c) := by decide
theorem test_decode_avail_p : decode 0x4300000000 = .ok (.avail .p) := by decide
theorem test_decode_flush : decode 0x0400000000 = .ok (.flush) := by decide
theorem test_decode_rdovr_c : decode 0x0500000000 = .ok (.rdovr .c) := by decide
theorem test_decode_rdovr_p : decode 0x4500000000 = .ok (.rdovr .p) := by decide
theorem test_decode_rdtot_c : decode 0x0600000000 = .ok (.rdtot .c) := by decide
theorem test_decode_rdtot_p : decode 0x4600000000 = .ok (.rdtot .p) := by decide
theorem test_decode_tick : decode 0x8800000000 = .ok (.tick) := by decide
theorem test_decode_now_c : decode 0x0900000000 = .ok (.now .c) := by decide
theorem test_decode_now_p : decode 0x4900000000 = .ok (.now .p) := by decide
theorem test_decode_delay : decode 0x0A00000003 = .ok (.delay 3) := by decide
theorem test_decode_delay_top : decode 0x0AFFFFFFFF = .ok (.delay 0xFFFFFFFF) := by decide
theorem test_decode_elapsed_c : decode 0x0BFFFFFFFD = .ok (.elapsed .c 0xFFFFFFFD) := by decide
theorem test_decode_elapsed_p : decode 0x4BFFFFFFFD = .ok (.elapsed .p 0xFFFFFFFD) := by decide

/-- The encoder gives the words of the same table. -/
theorem test_encode :
    [encode (.push 0xFF), encode .pop, encode (.avail .p), encode .flush, encode (.rdovr .c), encode (.rdtot .p)] =
      [0x41000000FF, 0x0200000000, 0x4300000000, 0x0400000000, 0x0500000000, 0x4600000000] ∧
    [encode .tick, encode (.now .p), encode (.delay 3), encode (.elapsed .p 0xFFFFFFFD)] =
      [0x8800000000, 0x4900000000, 0x0A00000003, 0x4BFFFFFFFD] := by decide

theorem test_illegal_opcodes :
    decode 0x0000000000 = .error (.unassignedOpcode 0x00) ∧ decode 0x0700000000 = .error (.unassignedOpcode 0x07) ∧
    decode 0x0C00000000 = .error (.unassignedOpcode 0x0C) ∧ decode 0x3F00000000 = .error (.unassignedOpcode 0x3F) := by
  decide

theorem test_illegal_contexts :
    decode 0xFFFFFFFFFF = .error .reservedCtx ∧ decode 0xC100000041 = .error .reservedCtx ∧
    decode 0x0100000041 = .error (.wrongContext .c 0x01) ∧ decode 0x8100000041 = .error (.wrongContext .t 0x01) ∧
    decode 0x4200000000 = .error (.wrongContext .p 0x02) ∧ decode 0x4400000000 = .error (.wrongContext .p 0x04) ∧
    decode 0x0800000000 = .error (.wrongContext .c 0x08) ∧ decode 0x8300000000 = .error (.wrongContext .t 0x03) ∧
    decode 0x8900000000 = .error (.wrongContext .t 0x09) ∧ decode 0x4A00000005 = .error (.wrongContext .p 0x0A) := by
  decide

theorem test_illegal_operands :
    decode 0x0200000001 = .error (.operandNotZero 1) ∧ decode 0x8800000001 = .error (.operandNotZero 1) ∧
    decode 0x4100000100 = .error (.operandNotZero 0x100) := by decide

theorem test_response_words :
    [Response.word ⟨.ok, 0x41⟩, Response.word ⟨.ok, 0xFFFFFFFF⟩, Response.word ⟨.full, 0⟩, Response.word ⟨.empty, 0⟩,
      Response.word ⟨.illegal, 0⟩] =
    [0x0000000041, 0x00FFFFFFFF, 0x0100000000, 0x0200000000, 0xFF00000000] := by decide

theorem test_decodeTableWord : decodeTableWord 40 0x4BFFFFFFFD = some (.elapsed .p 0xFFFFFFFD) := by decide

theorem test_withFetchWord_push :
    look (step (State.reset.withFetchWord 40 0x4100000041)) (fun t => (t.head, t.slot 0, t.rsp.p)) =
      some (1, some 0x41, [⟨.ok, 0⟩]) := by decide

theorem test_withFetchWord_delay :
    look (step (State.reset.withFetchWord 40 0x0A00000003)) (fun t => t.seq) = some (.delayD1 3) := by decide

/-- Program G7, step 1: the operation presented last is the one that goes on (R188). -/
theorem test_step_goes_on :
    look (run 2 ((State.reset.withFetchWord 40 0x0900000000).setSched [.c, .c])) (fun t => (t.seq, t.rsp.c)) =
      some (.idle, [⟨.ok, 0⟩]) := by decide

/-- An illegal word is answered and changes nothing (R89): POP presented on port P. -/
theorem test_illegal_answered :
    look (step (full4.presentNext .p Instr.pop.request)) (fun t => t) =
      some { full4 with rsp := ⟨[], [⟨.illegal, 0⟩], []⟩ } := by decide

/-! ### The operations, one step each (`spec/95_test_vectors.md` 2.2 to 2.9) -/

/-- Vector PUSH 3: `head` wraps. -/
theorem test_push_wraps :
    look (exec (.push 0x55) { blk 2 7 3 [] with totalReceivedCount := 20 })
      (fun t => (t.head, t.slot 7, t.overrunCount, t.totalReceivedCount, t.rsp.p)) =
      some (0, some 0x55, 0, 21, [⟨.ok, 0⟩]) := by decide

/-- Vector PUSH 11: full, `overrunCount` saturates and `totalReceivedCount` wraps. -/
theorem test_push_full_counters :
    look (exec (.push 0x09)
        { blk 0 1 0 [(0, 5)] with overrunCount := 0xFFFFFFFF, totalReceivedCount := 0xFFFFFFFF })
      (fun t => (t.head, t.storage, t.overrunCount, t.totalReceivedCount, t.rsp.p)) =
      some (1, [(0, 5)], 0xFFFFFFFF, 0, [⟨.full, 0⟩]) := by decide

/-- Vector POP 3: `tail` wraps. -/
theorem test_pop_c4_wraps :
    look (exec .pop { blk 2 2 7 [(0, 1), (1, 2), (7, 0x99)] with seq := .popC4 2 7 0x99 })
      (fun t => (t.tail, t.seq, t.rsp.c)) = some (0, .idle, [⟨.ok, 0x99⟩]) := by decide

/-- Vector POP 5: empty at an index that is not 0. -/
theorem test_pop_c2_empty :
    look (exec .pop { empty4 with seq := .popC2 3 }) (fun t => (t.tail, t.seq, t.rsp.c)) =
      some (3, .idle, [⟨.empty, 0⟩]) := by decide

/-- Vector AVAIL 4: `head < tail`. -/
theorem test_avail_wrapped :
    look (exec (.avail .c) { blk 2 3 5 [] with seq := .availA2 3 }) (fun t => (t.seq, t.rsp.c)) =
      some (.idle, [⟨.ok, 6⟩]) := by decide

/-- Vector AVAIL 8, in context P. -/
theorem test_avail_p : look (exec (.avail .p) (blk 9 5 1000 [])) (fun t => t.rsp.p) = some [⟨.ok, 29⟩] := by decide

/-- Program G5, step 3: the byte stored during the FLUSH is kept. -/
theorem test_flush_stale_head :
    look (exec .flush { blk 2 4 0 [(0, 1), (1, 2), (2, 3), (3, 4)] with seq := .flushF2 3 })
      (fun t => (t.tail, t.head, t.rsp.c)) = some (3, 4, [⟨.ok, 0⟩]) := by decide

/-- Vector RDOVR 3 and RDTOT 3. -/
theorem test_rdovr :
    look (exec (.rdovr .c) { full4 with overrunCount := 0xFFFFFFFF, totalReceivedCount := 1, seq := .rdovrR1 })
      (fun t => (t.overrunCount, t.rsp.c)) = some (0xFFFFFFFF, [⟨.ok, 0xFFFFFFFF⟩]) := by decide

theorem test_rdtot :
    look (exec (.rdtot .c) { full4 with overrunCount := 0xFFFFFFFF, totalReceivedCount := 1, seq := .rdtotT1 })
      (fun t => (t.totalReceivedCount, t.rsp.c)) = some (1, [⟨.ok, 1⟩]) := by decide

/-- Vectors TICK 3 and TICK 4: the silent wrap, also of a narrow counter. -/
theorem test_tick_wraps :
    look (exec .tick { State.reset with ticks := 0xFFFFFFFF }) (fun t => (t.ticks, t.rsp.t)) =
      some (0, [⟨.ok, 0⟩]) := by decide

theorem test_tick_wraps_narrow : look (exec .tick { narrow with ticks := 0xFF }) (fun t => t.ticks) = some 0 := by decide

theorem test_now : look (exec (.now .c) { narrow with seq := .nowN1 }) (fun t => (t.seq, t.rsp.c)) =
    some (.idle, [⟨.ok, 250⟩]) := by decide

/-- Vectors DELAY 6 (the test is not equality) and DELAY 5 (no tick, no response). -/
theorem test_delay_responds :
    look (exec (.delay 3) { State.reset with ticks := 15, seq := .delayD2 3 10 none }) (fun t => (t.seq, t.rsp.c)) =
      some (.idle, [⟨.ok, 0⟩]) := by decide

theorem test_delay_polls_again :
    look (exec (.delay 1) { State.reset with ticks := 10, seq := .delayD2 1 10 none }) (fun t => (t.seq, t.rsp.c)) =
      some (.delayD2 1 10 (some 10), []) := by decide

/-- Vectors ELAPSED 3 (across the wrap) and ELAPSED 7 (a narrow counter). -/
theorem test_elapsed_wraps :
    look (exec (.elapsed .c 0xFFFFFFFD) { State.reset with ticks := 2, seq := .elapsedE1 0xFFFFFFFD }) (fun t => t.rsp.c) =
      some [⟨.ok, 5⟩] := by decide

theorem test_elapsed_narrow :
    look (exec (.elapsed .p 250) { narrow with ticks := 3 }) (fun t => t.rsp.p) = some [⟨.ok, 9⟩] := by decide

/-- Program G8, step 2: `CMD_FLUSH` is dispatched, and the FLUSH is accepted in the same turn. -/
theorem test_poll_dispatches_flush :
    look (step { State.reset with
        con := ⟨.pollPop, 0, .idle, [], []⟩, rsp := ⟨[⟨.ok, 0x46⟩], [], []⟩, env := ⟨[.c], [], [], []⟩ })
      (fun t => (t.con.prog, t.con.sessionState, t.seq)) =
      some (.pollFlush, .awaitingCommandEcho, .flushF1) := by decide

/-- Program G8, steps 9 to 11: the report and `lastReportTick`. -/
theorem test_poll_reports :
    look (step { State.reset with
        con := ⟨.pollTot (.periodic 1000) 0 0, 0, .idle, [], []⟩, rsp := ⟨[⟨.ok, 2⟩], [], []⟩,
        env := ⟨[.c], [], [], []⟩ })
      (fun t => (t.con.prog, t.con.lastReportTick, t.con.sink)) =
      some (.rest, 1000, [.telemetry 0 0 2]) := by decide

/-! ### Witnesses: encoding and arithmetic -/

theorem witness_DecodeOfEncodeIsTheCommand :
    (Instr.delay 0xFF).wellFormed 8 = true ∧ (Instr.elapsed .p 0xFFFFFFFF).wellFormed 32 = true ∧
    (Instr.push 0xFF).wellFormed 1 = true := by decide

theorem witness_EncodeOfDecodeIsTheWord :
    decodeFor 32 0x0AFFFFFFFF = .ok (.delay 0xFFFFFFFF) ∧ decodeFor 1 0x0A00000001 = .ok (.delay 1) := by decide

theorem witness_DecoderAgreesWithTheOpcodeTable :
    decode 0x41000000FF = .ok (.push 0xFF) ∧
    (∃ r ∈ opcodeTable, r.selects 0x41000000FF = true ∧ r.mnemonic = "PUSH") := by decide

theorem witness_IllegalCommandsAreThoseOfR89AndChangeNothing :
    decodeFor full4.cfg.tickW (Ctx.drive .p Instr.pop.request) = .error (.wrongContext .p 0x02) ∧
    decodeFor full4.cfg.tickW (Ctx.drive .t Instr.pop.request) = .error (.wrongContext .t 0x02) ∧
    decodeFor full4.cfg.tickW (Ctx.drive .c Instr.tick.request) = .error (.wrongContext .c 0x08) ∧
    (full4.presentNext .p Instr.pop.request).env = ⟨[.p], [], [Instr.pop.request], []⟩ ∧
    (full4.presentNext .t Instr.pop.request).env = ⟨[.t], [], [], [Instr.pop.request]⟩ ∧
    (full4.presentNext .c Instr.tick.request).env = ⟨[.c], [.command Instr.tick.request], [], []⟩ ∧
    (full4.presentNext .c Instr.tick.request).seq = .idle ∧
    (full4.presentNext .c Instr.tick.request).con.prog = .rest := by decide

theorem witness_CursorSuccessorIsModuloCapacity :
    (0 : Word).toNat < full4.cfg.capacity ∧ (0 : Word).toNat < full4.cfg.capacity - 1 ∧
    (3 : Word).toNat < full4.cfg.capacity ∧ (3 : Word).toNat = full4.cfg.capacity - 1 := by decide

theorem witness_CursorDifferenceIsModuloCapacity :
    (0 : Word).toNat < full4.cfg.capacity ∧ (3 : Word).toNat < full4.cfg.capacity ∧
    (0 : Word).toNat < (3 : Word).toNat ∧ (0 : Word).toNat ≤ (0 : Word).toNat := by decide

theorem witness_CounterIncrementsSaturateAndWrap :
    fits 32 0xFFFFFFFF = true ∧ fits 1 1 = true ∧ fits 0 0 = true := by decide

theorem witness_TickArithmeticIsModuloTickWidth :
    fits 32 0xFFFFFFFF = true ∧ fits 8 0xFF = true ∧ (0xFF : Word).toNat = 2 ^ 8 - 1 ∧ (0 : Word).toNat < 2 ^ 8 - 1 ∧
    (3 : Word).toNat < (250 : Word).toNat ∧ fits 1 1 = true := by decide

/-! ### Witnesses: the step -/

theorem witness_StepRunsTheDecodedCommand :
    (full4.presentNext .p (Instr.push 1).request).env = ⟨[.p], [], [(Instr.push 1).request], []⟩ ∧
    decodeFor 32 (Ctx.drive .p (Instr.push 1).request) = .ok (.push 1) ∧
    (full4.presentNext .t Instr.tick.request).env = ⟨[.t], [], [], [Instr.tick.request]⟩ ∧
    decodeFor 32 (Ctx.drive .t Instr.tick.request) = .ok .tick ∧
    (full4.presentNext .c Instr.pop.request).env = ⟨[.c], [.command Instr.pop.request], [], []⟩ ∧
    full4.seq = .idle ∧ full4.con.prog = .rest ∧
    decodeFor 32 (Ctx.drive .c Instr.pop.request) = .ok .pop ∧ full4.cfg.tickW = 32 ∧
    ((full4.setSeq (.popC2 3)).setSched [.c]).env.sched = [.c] ∧ (full4.setSeq (.popC2 3)).seq.instr = some .pop := by
  decide

theorem witness_BusyPortAcceptsNothing :
    Instr.ctx .flush = .c ∧ (full4.setSeq (.popC2 3)).seq.instr = some .pop ∧ Instr.pop ≠ .flush ∧
    (full4.setSeq (.delayD1 3)).seq.instr = some (.delay 3) ∧ Instr.delay 3 ≠ .delay 4 := by decide

theorem witness_NothingChangesWithoutAnEnabledStep :
    full4.env.sched = [] ∧
    (full4.setSched [.p]).env = ⟨[.p], [], [], []⟩ ∧ (full4.setSched [.t]).env = ⟨[.t], [], [], []⟩ ∧
    (full4.setSched [.c]).env = ⟨[.c], [], [], []⟩ ∧ full4.seq = .idle ∧ full4.con.prog = .rest := by decide

/-! ### Witnesses: PUSH and POP -/

theorem witness_PushStoresTheByteOrDropsIt :
    full4.inRange full4.head = true ∧ cursorSucc full4.mask full4.head = full4.tail ∧
    empty4.inRange empty4.head = true ∧ cursorSucc empty4.mask empty4.head ≠ empty4.tail := by decide

theorem witness_PushFrame :
    goesOn (exec (.push 1) full4) = true ∧ isFull full4.mask full4.head full4.tail = true ∧
    goesOn (exec (.push 1) wrapped4) = true ∧ isFull wrapped4.mask wrapped4.head wrapped4.tail = false := by decide

theorem witness_PushAppends_full : full4.Inv ∧ full4.contents.length = full4.cfg.capacity - 1 :=
  ⟨inv_of_check (by decide), by decide⟩

theorem witness_PushAppends_room : wrapped4.Inv ∧ wrapped4.contents.length < wrapped4.cfg.capacity - 1 :=
  ⟨inv_of_check (by decide), by decide⟩

theorem witness_PushNeverWritesAHeldSlot :
    wrapped4.Inv ∧ (∃ t, exec (.push 1) wrapped4 = .next t) ∧ 1 < wrapped4.available.toNat :=
  ⟨inv_of_check (by decide), next_of_goesOn (by decide), by decide⟩

theorem witness_PopMicroSteps :
    (full4.setSeq .idle).seq = .idle ∧ (full4.setSeq .popC1).seq = .popC1 ∧
    ((empty4.setSeq (.popC2 3)).seq = .popC2 3 ∧ (3 : Word) = empty4.tail) ∧
    ((wrapped4.setSeq (.popC2 1)).seq = .popC2 1 ∧ (1 : Word) ≠ wrapped4.tail) ∧
    ((wrapped4.setSeq (.popC3 1 3)).seq = .popC3 1 3 ∧ wrapped4.inRange 3 = true ∧ wrapped4.slot 3 = some 30) ∧
    (wrapped4.setSeq (.popC4 1 3 30)).seq = .popC4 1 3 30 := by decide

theorem witness_PopAndFlushFrame :
    goesOn (exec .pop (wrapped4.setSeq (.popC3 1 3))) = true ∧ (wrapped4.setSeq (.popC3 1 3)).seq.label = some .c3 ∧
    goesOn (exec .flush (wrapped4.setSeq .flushF1)) = true ∧ (wrapped4.setSeq .flushF1).seq.label = some .f1 := by
  decide

/-- A POP at c1 with a PUSH, a TICK and nothing before its three further micro-steps. -/
def popScene : State := (wrapped4.setSeq .popC1).setSched (.c :: ([.p] ++ .c :: ([.t] ++ .c :: ([] ++ .c :: []))))

theorem witness_PopAnswers_byte :
    popScene.Inv ∧ popScene.seq = .popC1 ∧ popScene.contents = 30 :: [40] ∧ onlyInterrupts [.p] = true ∧
    onlyInterrupts [.t] = true ∧ onlyInterrupts [] = true :=
  ⟨inv_of_check (by decide), by decide, by decide, by decide, by decide, by decide⟩

theorem witness_PopAnswers_empty :
    ((empty4.setSeq .popC1).setSched (.c :: ([.p] ++ .c :: []))).Inv ∧
    ((empty4.setSeq .popC1).setSched (.c :: ([.p] ++ .c :: []))).contents = [] :=
  ⟨inv_of_check (by decide), by decide⟩

theorem witness_PopIsAtomic :
    (wrapped4.setSeq (.popC4 1 3 30)).Inv ∧ (wrapped4.setSeq (.popC4 1 3 30)).seq = .popC4 1 3 30 :=
  ⟨inv_of_check (by decide), rfl⟩

/-! ### Witnesses: AVAIL, FLUSH, RDOVR, RDTOT -/

theorem witness_AvailAnswersTheNumberOfBytesHeld :
    (wrapped4.setSeq .availA1).seq = .availA1 ∧ (wrapped4.setSeq (.availA2 1)).seq = .availA2 1 ∧ wrapped4.seq = .idle := by
  decide

theorem witness_AvailAnswersForItsFirstMicroStep :
    ((wrapped4.setSeq .availA1).setSched (.c :: ([.p, .t] ++ .c :: []))).Inv ∧ onlyInterrupts [.p, .t] = true :=
  ⟨inv_of_check (by decide), by decide⟩

theorem witness_FlushMicroSteps :
    (wrapped4.setSeq .flushF1).seq = .flushF1 ∧ (wrapped4.setSeq (.flushF2 1)).seq = .flushF2 1 ∧ wrapped4.seq = .idle := by
  decide

theorem witness_FlushKeepsTheBytesStoredDuringIt :
    ((wrapped4.setSeq .flushF1).setSched (.c :: ([.p] ++ .c :: []))).Inv ∧
    ((wrapped4.setSeq .flushF1).setSched (.c :: ([.p] ++ .c :: []))).seq = .flushF1 ∧ onlyInterrupts [.p] = true :=
  ⟨inv_of_check (by decide), rfl, by decide⟩

theorem witness_RdovrAnswersTheOverrunCount : wrapped4.seq = .idle ∧ (wrapped4.setSeq .rdovrR1).seq = .rdovrR1 := by decide

theorem witness_RdtotAnswersTheTotalReceivedCount : wrapped4.seq = .idle ∧ (wrapped4.setSeq .rdtotT1).seq = .rdtotT1 := by
  decide

/-! ### Witnesses: the clock -/

theorem witness_NowAnswersTicks : narrow.seq = .idle ∧ (narrow.setSeq .nowN1).seq = .nowN1 := by decide

theorem witness_DelayMicroSteps :
    narrow.seq = .idle ∧ (narrow.setSeq (.delayD1 255)).seq = .delayD1 255 ∧
    ((narrow.setSeq (.delayD2 10 240 none)).seq = .delayD2 10 240 none ∧
      (10 : Word).toNat ≤ (subN narrow.cfg.tickW narrow.ticks 240).toNat) ∧
    ((narrow.setSeq (.delayD2 11 240 none)).seq = .delayD2 11 240 none ∧
      (subN narrow.cfg.tickW narrow.ticks 240).toNat < (11 : Word).toNat) := by decide

theorem witness_ElapsedAnswersTheDifference :
    narrow.seq = .idle ∧ (narrow.setSeq (.elapsedE1 255)).seq = .elapsedE1 255 := by decide

theorem witness_QueriesAndDelayWriteNoSharedState :
    goesOn (exec (.avail .c) wrapped4) = true ∧ goesOn (exec (.elapsed .p 5) wrapped4) = true ∧
    Instr.ctx (.avail .c) = .c ∧ Instr.ctx (.elapsed .p 5) = .p ∧
    goesOn (exec (.rdovr .c) wrapped4) = true ∧ goesOn (exec (.rdtot .c) wrapped4) = true ∧
    goesOn (exec (.now .c) wrapped4) = true ∧ goesOn (exec (.delay 5) wrapped4) = true := by decide

theorem witness_DelayNeverRespondsWithoutItsTicks :
    ((narrow.setSeq (.delayD2 12 250 none)).setSched (.t :: .c :: List.replicate 10 .t)).Inv ∧
    (subN narrow.cfg.tickW narrow.ticks 250).toNat + (Ctx.t :: Ctx.c :: List.replicate 10 .t).count .t <
      (12 : Word).toNat :=
  ⟨inv_of_check (by decide), by decide⟩

/-- A DELAY of 10 that started at 250, with ten ticks to come, a poll after each: the counter wraps. -/
def delayScene : State := { narrow with
  seq := .delayD2 10 250 none
  env := ⟨(List.replicate 10 [Ctx.t, Ctx.c]).flatten ++ [], [], [], List.replicate 10 Instr.tick.request ++ []⟩ }

theorem witness_DelayResponds_ticks :
    delayScene.Inv ∧ delayScene.seq = .delayD2 10 250 none ∧ 0 < 10 ∧
    (subN delayScene.cfg.tickW delayScene.ticks 250).toNat + 10 = (10 : Word).toNat :=
  ⟨inv_of_check (by decide), rfl, by decide, by decide⟩

theorem witness_DelayResponds_zero :
    ((narrow.setSeq (.delayD1 0)).setSched (.c :: .c :: [])).seq = .delayD1 0 ∧
    ((narrow.setSeq (.delayD1 0)).setSched (.c :: .c :: [])).env.sched = .c :: .c :: [] := by decide

/-- `ticks` at `MAX - 2`, five ticks and the query of that stamp. -/
def elapsedScene : State := { narrow with
  ticks := 253
  env := ⟨List.replicate 5 Ctx.t ++ .p :: [], [], [(Instr.elapsed .p 253).request],
    List.replicate 5 Instr.tick.request ++ []⟩ }

theorem witness_ElapsedCountsTheTicksSinceTheStamp :
    elapsedScene.Inv ∧ 3 ≤ elapsedScene.cfg.tickW ∧ elapsedScene.ticks.toNat = 2 ^ elapsedScene.cfg.tickW - 1 - 2 ∧
    elapsedScene.env.reqP = (Instr.elapsed .p elapsedScene.ticks).request :: [] :=
  ⟨inv_of_check (by decide), by decide, by decide, by decide⟩

theorem witness_ElapsedCounts_in_context_c :
    ({ narrow with env := ⟨List.replicate 5 Ctx.t ++ .c :: .c :: [], [.command (Instr.elapsed .c 250).request], [],
      List.replicate 5 Instr.tick.request ++ []⟩ } : State).Inv ∧ narrow.seq = .idle ∧ narrow.con.prog = .rest ∧
    narrow.ticks = 250 :=
  ⟨inv_of_check (by decide), rfl, rfl, rfl⟩

/-! ### Witnesses: preemption, invariants and runs -/

theorem witness_InterruptsPreserveTheConsumer :
    (popScene.presentNext .p (Instr.push 1).request).env.sched = .p :: popScene.env.sched ∧
    goesOn (step (popScene.presentNext .p (Instr.push 1).request)) = true ∧
    goesOn (step (popScene.presentNext .t Instr.tick.request)) = true := by decide

theorem witness_EveryFieldHasOneWritingContext :
    popScene.env.sched = .c :: ([.p] ++ .c :: ([.t] ++ .c :: ([] ++ .c :: []))) ∧ goesOn (step popScene) = true := by decide

theorem witness_ClockAndBufferOperationsCommute :
    (Instr.push 7).opcode.getLsbD 3 = false ∧ Instr.pop.opcode.getLsbD 3 = false ∧
    (Instr.delay 7).opcode.getLsbD 3 = true ∧ (Instr.delay 7).ctx ≠ .p ∧ Instr.tick.ctx ≠ .p ∧
    goesOn (exec (.push 7) wrapped4) = true ∧ goesOn (exec .pop wrapped4) = true ∧ goesOn (exec .tick wrapped4) = true ∧
    goesOn (exec (.delay 7) wrapped4) = true := by decide

theorem witness_LatchesHoldNoValueWhileIdle : Seq.instr .idle = none := rfl

theorem witness_ConstructedBlockMeetsTheInvariant : Config.example8.legal = true := by decide

theorem witness_StepKeepsTheInvariant : popScene.Inv ∧ ∃ t, step popScene = .next t :=
  ⟨inv_of_check (by decide), next_of_goesOn (by decide)⟩

theorem witness_StepNeverStops : (wrapped4.presentNext .c Instr.pop.request).Inv := inv_of_check (by decide)

theorem witness_StepKeepsOverrunCountExact :
    ({ full4 with overrunCount := 0, env := ⟨[.p], [], [(Instr.push 1).request], []⟩ } : State).OverrunExact ∧
    ∃ t, step { full4 with overrunCount := 0, env := ⟨[.p], [], [(Instr.push 1).request], []⟩ } = .next t :=
  ⟨by unfold State.OverrunExact; decide, next_of_goesOn (by decide)⟩

theorem witness_CountersMoveOnlyByTheirIncrements :
    ∃ t, step (full4.presentNext .p (Instr.push 1).request) = .next t := next_of_goesOn (by decide)

theorem witness_OnlyTheConsumerRemovesBytes :
    popScene.Inv ∧ popScene.env.sched = .c :: popScene.env.sched.tail ∧ (∃ t, step popScene = .next t) ∧
    (wrapped4.presentNext .p (Instr.push 1).request).Inv ∧
    ∃ t, step (wrapped4.presentNext .p (Instr.push 1).request) = .next t :=
  ⟨inv_of_check (by decide), by decide, next_of_goesOn (by decide), inv_of_check (by decide),
    next_of_goesOn (by decide)⟩

theorem witness_AnswersRightAfterReset :
    Config.example8.legal = true ∧ ([1, 2, 3, 4, 5, 6, 7] : List Byte).length ≤ Config.example8.capacity - 1 := by decide

/-- Scenario S5 with `CAPACITY = 4`, N = 5. -/
def overrunScene : State := { empty4 with
  env := ⟨List.replicate 5 Ctx.p ++ (List.replicate 19 Ctx.c ++ []), [.drain], pushN [1, 2, 3, 4, 5] ++ [], []⟩ }

theorem witness_OverrunAccounting :
    overrunScene.Inv ∧ overrunScene.seq = .idle ∧ overrunScene.con.prog = .rest ∧ overrunScene.head = overrunScene.tail ∧
    overrunScene.cfg.capacity - 1 < 5 ∧
    overrunScene.overrunCount.toNat + (5 - (overrunScene.cfg.capacity - 1)) ≤ 2 ^ overrunScene.cfg.cntW - 1 ∧
    overrunScene.env.sched =
      List.replicate 5 Ctx.p ++ (List.replicate (5 * (overrunScene.cfg.capacity - 1) + 4) Ctx.c ++ []) :=
  ⟨inv_of_check (by decide), by decide, by decide, by decide, by decide, by decide, by decide⟩

theorem witness_PoppedBytesArePushedBytesInOrder :
    Config.example8.legal = true ∧ ([1, 2, 3, 4, 5, 6, 7] : List Byte).length ≤ Config.example8.capacity - 1 := by decide

/-- Two bytes held, an AVAIL and a DRAIN to run. -/
def drainScene : State := { wrapped4 with
  env := ⟨List.replicate 3 Ctx.c ++ (List.replicate 14 Ctx.c ++ []), [.command (Instr.avail .c).request, .drain], [], []⟩ }

theorem witness_Drain :
    drainScene.Inv ∧ drainScene.seq = .idle ∧ drainScene.con.prog = .rest ∧
    drainScene.env.sched =
      List.replicate 3 Ctx.c ++ (List.replicate (5 * drainScene.available.toNat + 4) Ctx.c ++ []) :=
  ⟨inv_of_check (by decide), rfl, rfl, by decide⟩

theorem witness_FlushEmpties :
    ({ wrapped4 with env := ⟨List.replicate 9 Ctx.c ++ [],
      [.command Instr.flush.request, .command Instr.flush.request, .command (Instr.avail .c).request],
      [], []⟩ } : State).seq = .idle ∧
    wrapped4.con.prog = .rest := by decide

theorem witness_ConsoleDispatchesTheByte :
    (Response.mk .empty 0).status ≠ .ok ∧ popByte ⟨.ok, 0x53⟩ = State.reset.cfg.cmdStatus ∧
    (popByte ⟨.ok, 0x46⟩ ≠ State.reset.cfg.cmdStatus ∧ popByte ⟨.ok, 0x46⟩ = State.reset.cfg.cmdFlush) ∧
    (popByte ⟨.ok, 0x41⟩ ≠ State.reset.cfg.cmdStatus ∧ popByte ⟨.ok, 0x41⟩ ≠ State.reset.cfg.cmdFlush ∧
      State.reset.cfg.echoPolicy = .ignore) ∧
    ({ Config.example8 with echoPolicy := .echo } : Config).echoPolicy = .echo := by decide

/-- An empty buffer and a POLL to run, `ticks` as given. -/
def pollScene (now : Word) (turns : Nat) : State := { empty4 with
  ticks := now
  env := ⟨List.replicate turns Ctx.c ++ [], [.poll], [], []⟩ }

theorem witness_PollReports_due :
    (pollScene 1000 13).Inv ∧ (pollScene 1000 13).head = (pollScene 1000 13).tail ∧
    (pollScene 1000 13).cfg.reportInterval.toNat ≤ (subN (pollScene 1000 13).cfg.tickW (pollScene 1000 13).ticks 0).toNat :=
  ⟨inv_of_check (by decide), rfl, by decide⟩

theorem witness_PollReports_not_due :
    (pollScene 999 6).Inv ∧ (pollScene 999 6).head = (pollScene 999 6).tail ∧
    (subN (pollScene 999 6).cfg.tickW (pollScene 999 6).ticks 0).toNat < (pollScene 999 6).cfg.reportInterval.toNat :=
  ⟨inv_of_check (by decide), rfl, by decide⟩

theorem witness_ConsoleActsOnlyThroughCommands :
    (progStep .pollFlush ⟨.ok, 0⟩ State.reset).2 = some (.elapsed .c 0) := by decide

end Sys2Proof.Tests
end

section
/-! SUPPORT. The cursors of the ring as numbers below `CAPACITY` (R110, R111), and the bytes held as a list of known
length (R37 (c)). -/

namespace Sys2Proof.Machine

theorem inRange_iff {s : State} {x : Word} : s.inRange x = true ↔ x.toNat < s.cfg.capacity := decide_eq_true_iff

/-- The array has a slot for every cursor value (R50, R51). -/
theorem hasSlot_of_inRange {s : State} {x : Word} (hx : s.inRange x = true) : s.hasSlot x = true := hx

/-- A sum of two words masked with `MASK` is the sum modulo `CAPACITY`: `CAPACITY` divides `2^WORD_W`. -/
theorem add_and_mask_toNat (s : State) (x y : Word) :
    ((x + y) &&& s.mask).toNat = (x.toNat + y.toNat) % s.cfg.capacity := by
  rw [and_mask_toNat, BitVec.toNat_add]
  exact mod_word_mod (Nat.le_trans s.cfg.idxW_le (by decide)) _

/-- Below `2 * c` the remainder modulo `c` takes at most one subtraction. -/
theorem mod_of_lt_two_mul {n c : Nat} (h : n < 2 * c) : n % c = if n < c then n else n - c := by
  split
  · exact Nat.mod_eq_of_lt ‹_›
  · rw [Nat.mod_eq_sub_mod (by omega), Nat.mod_eq_of_lt (by omega)]

/-- The successor of a cursor wraps at `CAPACITY` (R110). -/
theorem cursorSucc_toNat {s : State} {x : Word} (hx : x.toNat < s.cfg.capacity) :
    (cursorSucc s.mask x).toNat = if x.toNat + 1 < s.cfg.capacity then x.toNat + 1 else 0 := by
  have hsum : (cursorSucc s.mask x).toNat = (x.toNat + 1) % s.cfg.capacity := add_and_mask_toNat s x 1
  have hcap := s.cfg.two_le_capacity
  rw [hsum, mod_of_lt_two_mul (by omega)]
  split <;> omega

/-- The difference of two cursors is the distance from the second up to the first (R111). -/
theorem cursorDiff_toNat {s : State} {h t : Word} (hh : h.toNat < s.cfg.capacity) (ht : t.toNat < s.cfg.capacity) :
    (cursorDiff s.mask h t).toNat =
      if t.toNat ≤ h.toNat then h.toNat - t.toNat else h.toNat + s.cfg.capacity - t.toNat := by
  have hcap := s.cfg.capacity_le
  have hidx : s.cfg.idxW ≤ 32 := Nat.le_trans s.cfg.idxW_le (by decide)
  obtain ⟨q, hq⟩ : s.cfg.capacity ∣ 2 ^ 32 := Nat.pow_dvd_pow 2 hidx
  have hsplit : 2 ^ 32 - t.toNat + h.toNat = h.toNat + s.cfg.capacity - t.toNat + s.cfg.capacity * (q - 1) := by
    rw [Nat.mul_sub_one, ← hq]
    omega
  have hmod : (cursorDiff s.mask h t).toNat = (h.toNat + s.cfg.capacity - t.toNat) % s.cfg.capacity := by
    calc (cursorDiff s.mask h t).toNat
        = (2 ^ 32 - t.toNat + h.toNat) % 2 ^ 32 % s.cfg.capacity := by
          rw [cursorDiff, and_mask_toNat, BitVec.toNat_sub]
      _ = (2 ^ 32 - t.toNat + h.toNat) % s.cfg.capacity := mod_word_mod hidx _
      _ = (h.toNat + s.cfg.capacity - t.toNat) % s.cfg.capacity := by rw [hsplit, Nat.add_mul_mod_self_left]
  rw [hmod, mod_of_lt_two_mul (by omega)]
  split <;> split <;> omega

/-- The index of the `j`-th byte held, for `j` up to `CAPACITY` (R37 (c)). -/
theorem heldIndex_toNat {s : State} {j : Nat} (ht : s.tail.toNat < s.cfg.capacity) (hj : j < s.cfg.capacity) :
    (s.heldIndex j).toNat =
      if s.tail.toNat + j < s.cfg.capacity then s.tail.toNat + j else s.tail.toNat + j - s.cfg.capacity := by
  have hcap := s.cfg.capacity_le
  have hword : (BitVec.ofNat 32 j).toNat = j := by
    rw [BitVec.toNat_ofNat]
    exact Nat.mod_eq_of_lt (by omega)
  rw [State.heldIndex, add_and_mask_toNat, hword]
  exact mod_of_lt_two_mul (by omega)

/-- Under the invariant both cursors are below `CAPACITY` (R37 (a)) and the bytes held number their difference (R28). -/
theorem cursors_of_inv {s : State} (hs : s.Inv) :
    s.head.toNat < s.cfg.capacity ∧ s.tail.toNat < s.cfg.capacity ∧
    s.available.toNat =
      if s.tail.toNat ≤ s.head.toNat then s.head.toNat - s.tail.toNat
      else s.head.toNat + s.cfg.capacity - s.tail.toNat := by
  have hh := inRange_iff.mp hs.headInRange
  have ht := inRange_iff.mp hs.tailInRange
  exact ⟨hh, ht, cursorDiff_toNat hh ht⟩

theorem available_lt_capacity {s : State} (hs : s.Inv) : s.available.toNat < s.cfg.capacity := by
  obtain ⟨hh, ht, ha⟩ := cursors_of_inv hs
  split at ha <;> omega

/-- The slot after the newest byte is the one `head` names. -/
theorem heldIndex_available {s : State} (hs : s.Inv) : s.heldIndex s.available.toNat = s.head := by
  obtain ⟨hh, ht, ha⟩ := cursors_of_inv hs
  have hi := heldIndex_toNat ht (available_lt_capacity hs)
  apply BitVec.eq_of_toNat_eq
  split at ha <;> split at hi <;> omega

/-- No byte held lies in the slot `head` names (R37 (d)). -/
theorem heldIndex_ne_head {s : State} {j : Nat} (hs : s.Inv) (hj : j < s.available.toNat) : s.heldIndex j ≠ s.head := by
  obtain ⟨hh, ht, ha⟩ := cursors_of_inv hs
  have hi := heldIndex_toNat ht (Nat.lt_trans hj (available_lt_capacity hs))
  intro heq
  rw [heq] at hi
  split at ha <;> split at hi <;> omega

/-- The test of PUSH for full holds exactly when `CAPACITY - 1` bytes are held (R8, R28). -/
theorem cursorSucc_head_eq_tail_iff {s : State} (hs : s.Inv) :
    cursorSucc s.mask s.head = s.tail ↔ s.available.toNat = s.cfg.capacity - 1 := by
  obtain ⟨hh, ht, ha⟩ := cursors_of_inv hs
  have hn := cursorSucc_toNat hh
  rw [← BitVec.toNat_inj]
  split at ha <;> split at hn <;> omega

/-- A buffer that is not full holds one byte more once `head` has moved on. -/
theorem cursorDiff_succ_head {s : State} (hs : s.Inv) (hroom : cursorSucc s.mask s.head ≠ s.tail) :
    (cursorDiff s.mask (cursorSucc s.mask s.head) s.tail).toNat = s.available.toNat + 1 := by
  obtain ⟨hh, ht, ha⟩ := cursors_of_inv hs
  have hn := cursorSucc_toNat hh
  have hne : (cursorSucc s.mask s.head).toNat ≠ s.tail.toNat := BitVec.toNat_ne.mp hroom
  have hd := cursorDiff_toNat (s := s) (h := cursorSucc s.mask s.head) (t := s.tail) (by split at hn <;> omega) ht
  split at ha <;> split at hn <;> split at hd <;> omega

/-- Every byte held is there to be listed (R37 (c)). -/
theorem contents_length {s : State} (hw : s.heldWritten = true) : s.contents.length = s.available.toNat := by
  have hall : ∀ j ∈ List.range s.available.toNat, (s.slot (s.heldIndex j)).isSome = true := List.all_eq_true.mp hw
  calc s.contents.length = (List.range s.available.toNat).length := List.filterMap_length_eq_length.mpr hall
    _ = s.available.toNat := List.length_range

/-- With the byte `b` in the slot after the newest byte and `head` moved past it, `b` is the newest byte held. -/
theorem contents_eq_append {s t : State} {b : Byte} (hcfg : t.cfg = s.cfg) (htail : t.tail = s.tail)
    (havail : t.available.toNat = s.available.toNat + 1)
    (hold : ∀ j < s.available.toNat, t.slot (s.heldIndex j) = s.slot (s.heldIndex j))
    (hnew : t.slot (s.heldIndex s.available.toNat) = some b) : t.contents = s.contents ++ [b] := by
  have hidx : t.heldIndex = s.heldIndex := by
    funext j
    simp only [State.heldIndex, State.mask, hcfg, htail]
  have hsame : (List.range s.available.toNat).filterMap (fun j => t.slot (s.heldIndex j)) = s.contents :=
    List.filterMap_congr fun j hj => hold j (List.mem_range.mp hj)
  simp only [State.contents, havail, hidx, List.range_succ, List.filterMap_append, hsame]
  simp [hnew]

end Sys2Proof.Machine
end

section
/-! PROOFS. What PUSH does to the bytes held (R8, R114, R182, R217). -/

namespace Sys2Proof.Machine

/-- PUSH into a buffer that is not full appends its byte and answers OK (R114 p5, p6). -/
theorem push_appends_of_room (b : Byte) {s : State} (hs : s.Inv) (hroom : cursorSucc s.mask s.head ≠ s.tail) :
    Ends (exec (.push b) s) fun t => t.contents = s.contents ++ [b] ∧ t.rsp.p = ⟨.ok, 0⟩ :: s.rsp.p := by
  have hslot := hasSlot_of_inRange hs.headInRange
  rcases execPush_cases b s with ⟨hfull, -⟩ | ⟨-, -, hpush⟩ | ⟨-, hnoSlot, -⟩
  · exact absurd hfull hroom
  · refine ⟨_, hpush, contents_eq_append rfl rfl (cursorDiff_succ_head hs hroom) (fun j hj => ?_) ?_, rfl⟩
    · exact (slot_setStorage_write s s.head (s.heldIndex j) b).trans (if_neg (heldIndex_ne_head hs hj))
    · exact (slot_setStorage_write s s.head _ b).trans (if_pos (heldIndex_available hs))
  · simp [hslot] at hnoSlot

/-- PUSH into a full buffer leaves the bytes held as they are and answers FULL (R114 p3, R182). -/
theorem push_preserves_of_full (b : Byte) {s : State} (hfull : cursorSucc s.mask s.head = s.tail) :
    Ends (exec (.push b) s) fun t => t.contents = s.contents ∧ t.rsp.p = ⟨.full, 0⟩ :: s.rsp.p := by
  rcases execPush_cases b s with ⟨-, hpush⟩ | ⟨hroom, -⟩ | ⟨hroom, -⟩
  · exact ⟨_, hpush, rfl, rfl⟩
  · exact absurd hfull hroom
  · exact absurd hfull hroom

end Sys2Proof.Machine
end

namespace Sys2Proof

open Machine

/-- Settles O16: under the invariant the test of PUSH for full holds exactly when `CAPACITY - 1` bytes are held, and each
outcome of the test is one of the two cases. -/
theorem pushAppendsUnlessCapacityMinusOneAreHeld : Obligations.PushAppendsUnlessCapacityMinusOneAreHeld := by
  intro b s hs
  have hlen := contents_length hs.heldWritten
  have hlt := available_lt_capacity hs
  have hfull := cursorSucc_head_eq_tail_iff hs
  refine ⟨hlen, by omega, fun hroom => ?_, fun hheld => ?_⟩
  · exact push_appends_of_room b hs (mt hfull.mp (by omega))
  · exact push_preserves_of_full b (hfull.mpr (hlen ▸ hheld))

end Sys2Proof

section
/-! SUPPORT. What a turn of the schedule can do to the state (R30, R188 to R190), said once: the software and the inputs
move on, and then one of the effects of `TurnEffect` happens. -/

namespace Sys2Proof.Machine

/-- The position at which port C takes a command in: its first micro-step is next (R32, R188). A command of another
context takes port C nowhere. -/
def firstPosition : Instr → Seq
  | .push _ => .idle
  | .pop => .popC1
  | .avail _ => .availA1
  | .flush => .flushF1
  | .rdovr _ => .rdovrR1
  | .rdtot _ => .rdtotT1
  | .tick => .idle
  | .now _ => .nowN1
  | .delay imm32 => .delayD1 imm32
  | .elapsed _ imm32 => .elapsedE1 imm32

/-- `Follows s q`: a turn of context C can make `q` the next position of the sequencer, without a response. -/
inductive Follows (s : State) : Seq → Prop where
  /-- The acceptance of a legal command. -/
  | accepted {i : Instr} : i.ctx = .c → s.seq = .idle → i.wellFormed s.cfg.tickW = true → Follows s (firstPosition i)
  /-- c1, a1 and f1: the snapshot of `head`. -/
  | popHead : Follows s (.popC2 s.head)
  | availHead : Follows s (.availA2 s.head)
  | flushHead : Follows s (.flushF2 s.head)
  /-- c2, when the snapshot is not `tail`. -/
  | popTail {h : Word} : s.seq = .popC2 h → h ≠ s.tail → Follows s (.popC3 h s.tail)
  /-- c3. -/
  | popSlot {h t : Word} {b : Byte} : s.seq = .popC3 h t → s.slot t = some b → Follows s (.popC4 h t b)
  /-- d1. -/
  | delayStart {n : Word} : s.seq = .delayD1 n → Follows s (.delayD2 n s.ticks none)
  /-- d2, when the duration has not passed. -/
  | delayPoll {arg start : Word} {now : Option Word} :
    s.seq = .delayD2 arg start now → Follows s (.delayD2 arg start (some s.ticks))

/-- p4 and p5 of PUSH: the byte goes into the slot that `head` names, and `head` moves on (R114). -/
def State.storeByte (s : State) (b : Byte) : State :=
  (s.setStorage (Memory.write s.storage s.head.toNat b)).setHead (cursorSucc s.mask s.head)

/-- `TurnEffect who s t`: a turn of `who`, its inputs taken and the software run, takes `s` to `t`. -/
inductive TurnEffect : Ctx → State → State → Prop where
  /-- The agent had nothing to issue. -/
  | passed (who : Ctx) (s : State) : TurnEffect who s s
  /-- An answer alone: to an illegal command, or to a query of context P. -/
  | answered (who : Ctx) (s : State) {r : Response} : r.status ≠ .full → TurnEffect who s (s.respond who r)
  /-- PUSH into a full buffer (R114 p3). -/
  | dropped (s : State) : cursorSucc s.mask s.head = s.tail →
    TurnEffect .p s (((s.setOverrunCount (satIncN s.cfg.cntW s.overrunCount)).setTotalReceivedCount
      (addN s.cfg.cntW s.totalReceivedCount 1)).respond .p fullRsp)
  /-- PUSH into a buffer that is not full (R114 p4 to p6). -/
  | stored (s : State) (b : Byte) : cursorSucc s.mask s.head ≠ s.tail →
    TurnEffect .p s (((s.storeByte b).setTotalReceivedCount
      (addN s.cfg.cntW s.totalReceivedCount 1)).respond .p okDone)
  /-- TICK (R141). -/
  | ticked (s : State) : TurnEffect .t s ((s.setTicks (addN s.cfg.tickW s.ticks 1)).respond .t okDone)
  /-- A turn of context C after which an operation is in flight. -/
  | moved (s : State) {q : Seq} : Follows s q → TurnEffect .c s (s.setSeq q)
  /-- The last micro-step of an operation that leaves `tail` alone. -/
  | finished (s : State) (r : Response) : TurnEffect .c s ((s.setSeq .idle).respond .c r)
  /-- POP.c4 (R115). -/
  | popped (s : State) {h t : Word} {b : Byte} : s.seq = .popC4 h t b →
    TurnEffect .c s (((s.setTail (cursorSucc s.mask t)).setSeq .idle).respond .c (okValue (b.setWidth 32)))
  /-- FLUSH.f2 (R117). -/
  | flushed (s : State) {h : Word} : s.seq = .flushF2 h →
    TurnEffect .c s (((s.setTail h).setSeq .idle).respond .c okDone)

/-- `Prepared who s s'`: before its effect a turn of `who` consumes inputs, and in context C the software runs, which
moves `lastReportTick` only by a sum of ticks (R161, R162). -/
def Prepared (who : Ctx) (s s' : State) : Prop :=
  ∃ k e, s' = (s.setCon k).setEnv e ∧ (who ≠ .c → k = s.con) ∧
    (k.lastReportTick = s.con.lastReportTick ∨ ∃ x, k.lastReportTick = addN s.cfg.tickW s.con.lastReportTick x)

theorem prepared_setEnv (who : Ctx) (s : State) (e : Env) : Prepared who s (s.setEnv e) :=
  ⟨s.con, e, rfl, fun _ => rfl, .inl rfl⟩

/-! ### Commands of context P and T -/

theorem exec_push_next {b : Byte} {s t : State} (h : exec (.push b) s = .next t) : TurnEffect .p s t := by
  replace h : execPush b s = .next t := h
  rcases execPush_cases b s with ⟨hfull, hpush⟩ | ⟨hroom, -, hpush⟩ | ⟨-, -, hpush⟩
  · cases hpush.symm.trans h
    exact .dropped s hfull
  · cases hpush.symm.trans h
    exact .stored s b hroom
  · cases hpush.symm.trans h

/-- A query of context P is answered in its one step and changes nothing else (R116, R118, R119, R142, R144). -/
theorem exec_query_p {i : Instr} (hi : i.ctx = .p) (s : State) :
    (∃ b, i = .push b) ∨ ∃ v, exec i s = .next (s.respond .p (okValue v)) := by
  cases i with
  | push b => exact .inl ⟨b, rfl⟩
  | pop | flush | tick | delay => cases hi
  | avail q | rdovr q | rdtot q | now q | elapsed q =>
    cases q with
    | c => cases hi
    | p => exact .inr ⟨_, rfl⟩

theorem exec_p_next {i : Instr} {s t : State} (hi : i.ctx = .p) (h : exec i s = .next t) : TurnEffect .p s t := by
  rcases exec_query_p hi s with ⟨b, rfl⟩ | ⟨v, hv⟩
  · exact exec_push_next h
  · cases hv.symm.trans h
    exact .answered .p s (by simp [okValue])

/-- TICK is the one command of context T (R85). -/
theorem eq_tick_of_ctx {i : Instr} (hi : i.ctx = .t) : i = .tick := by
  cases i with
  | tick => rfl
  | push | pop | flush | delay => cases hi
  | avail q | rdovr q | rdtot q | now q | elapsed q => cases q <;> cases hi

theorem exec_t_next {i : Instr} {s t : State} (hi : i.ctx = .t) (h : exec i s = .next t) : TurnEffect .t s t := by
  cases eq_tick_of_ctx hi
  cases h
  exact .ticked s

/-! ### Commands of context C -/

theorem instr_eq_none_iff {q : Seq} : q.instr = none ↔ q = .idle := by
  cases q <;> simp [Seq.instr]

/-- The idle port C takes a command in and does nothing else (R188). -/
theorem exec_of_idle {i : Instr} {s : State} (hi : i.ctx = .c) (hs : s.seq = .idle) :
    exec i s = .next (s.setSeq (firstPosition i)) := by
  cases i with
  | push | tick => cases hi
  | pop | flush | delay => simp only [exec, execPop, execFlush, execDelay, hs, accept_eq, firstPosition]
  | avail q | rdovr q | rdtot q | now q | elapsed q =>
    cases q with
    | p => cases hi
    | c => simp only [exec, execAvail, execRdovr, execRdtot, execNow, execElapsed, hs, accept_eq, firstPosition]

/-- The branches of the meaning of an operation of context C are the idle port, the operation's own positions, and the
busy port (R32; log entry 4). -/
theorem exec_of_busy {i : Instr} {s : State} (hctx : i.ctx = .c) (hbusy : s.seq.instr ≠ none)
    (hother : s.seq.instr ≠ some i) : exec i s = .next s := by
  cases i with
  | push | tick => cases hctx
  | pop | flush | delay =>
    simp only [exec, execPop, execFlush, execDelay]
    split <;> simp_all [Seq.instr]
  | avail q | rdovr q | rdtot q | now q | elapsed q =>
    cases q with
    | p => cases hctx
    | c =>
      simp only [exec, execAvail, execRdovr, execRdtot, execNow, execElapsed]
      split <;> simp_all [Seq.instr]

/-- The micro-step of the operation in flight (R115 to R119, R142 to R144). -/
theorem exec_inFlight_next {i : Instr} {s t : State} (hi : s.seq.instr = some i) (h : exec i s = .next t) :
    TurnEffect .c s t := by
  cases hq : s.seq <;> rw [hq] at hi <;> cases hi <;>
    simp only [exec, execPop, execAvail, execFlush, execRdovr, execRdtot, execNow, execDelay, execElapsed, popC1, popC2,
      popC4, delayD1, delayD2, hq, if_true, continueAt_eq, finish_eq] at h
  case popC1 => cases h; exact .moved s .popHead
  case popC2 x =>
    split at h
    · cases h; exact .finished s _
    · rename_i hne
      cases h
      exact .moved s (.popTail hq (by simpa [isEmpty] using hne))
  case popC3 x y =>
    cases hr : memRead s y with
    | error f => simp [popC3, hr] at h
    | ok b =>
      simp only [popC3, hr, continueAt_eq] at h
      cases h
      exact .moved s (.popSlot hq (memRead_ok hr).2)
  case popC4 x y b => cases h; exact .popped s hq
  case availA1 => cases h; exact .moved s .availHead
  case flushF1 => cases h; exact .moved s .flushHead
  case flushF2 x => cases h; exact .flushed s hq
  case delayD1 n => cases h; exact .moved s (.delayStart hq)
  case delayD2 arg start now =>
    split at h
    · cases h; exact .finished s _
    · cases h; exact .moved s (.delayPoll hq)
  case availA2 | rdovrR1 | rdtotT1 | nowN1 | elapsedE1 => cases h; exact .finished s _

/-! ### The ports -/

/-- `CMD[39:38]` of the word a port carries is the port's own code (R82). -/
@[simp] theorem ctx_drive (port : Ctx) (x : Request) : CmdWord.ctx (port.drive x) = port.code := by
  apply BitVec.eq_of_getLsbD_eq
  intro i hi
  have hlow : ¬ 38 + i < 38 := by omega
  have hsub : 38 + i - 38 = i := by omega
  simp only [CmdWord.ctx, Ctx.drive, BitVec.getLsbD_extractLsb', BitVec.getLsbD_append, hi, hlow, hsub, decide_true,
    Bool.true_and, if_false]

/-- A command decodes only in a context that may issue it (R85). -/
theorem ctx_of_decode {w : CmdWord} {i : Instr} (h : decode w = .ok i) : Ctx.ofCode (CmdWord.ctx w) = some i.ctx := by
  unfold decode at h
  cases hc : Ctx.ofCode (CmdWord.ctx w) with
  | none => simp [hc] at h
  | some port =>
    cases port <;> simp only [hc] at h <;> grind [formatN, formatB, Instr.ctx, QueryCtx.toCtx]

/-- What a port accepts is a legal command of its context (R82, R83). -/
theorem decode_port {port : Ctx} {x : Request} {tickW : Nat} {i : Instr}
    (h : decodeFor tickW (port.drive x) = .ok i) : i.ctx = port ∧ i.wellFormed tickW = true := by
  obtain ⟨hd, hw⟩ := decodeFor_ok.mp h
  have hc := ctx_of_decode hd
  rw [ctx_drive, Ctx.ofCode_code] at hc
  exact ⟨(Option.some.inj hc).symm, hw⟩

/-- A command presented to a port that is ready for it. -/
theorem present_next {port : Ctx} {x : Request} {s t : State} (hidle : port = .c → s.seq = .idle)
    (h : present port x s = .next t) : TurnEffect port s t := by
  rcases present_cases port x s with ⟨i, hdec, hx⟩ | ⟨e, -, hx⟩
  · obtain ⟨hctx, hwf⟩ := decode_port hdec
    rw [hx] at h
    cases port with
    | p => exact exec_p_next hctx h
    | t => exact exec_t_next hctx h
    | c =>
      cases (exec_of_idle hctx (hidle rfl)).symm.trans h
      exact .moved s (.accepted hctx (hidle rfl) hwf)
  · cases hx.symm.trans h
    exact .answered port s (by simp [illegalRsp])

/-! ### The software of context C -/

/-- The software moves only its own variables, and `lastReportTick` only by a sum of ticks (R161, R162). -/
def SoftwareOnly (s t : State) : Prop :=
  t = s.setCon t.con ∧
    (t.con.lastReportTick = s.con.lastReportTick ∨
      ∃ x, t.con.lastReportTick = addN s.cfg.tickW s.con.lastReportTick x)

theorem dispatchByte_softwareOnly (b : Byte) (s : State) : SoftwareOnly s (dispatchByte b s).1 := by
  unfold dispatchByte
  split
  · exact ⟨rfl, .inl rfl⟩
  · split
    · exact ⟨rfl, .inl rfl⟩
    · unfold applyEchoPolicy
      split <;> exact ⟨rfl, .inl rfl⟩

theorem progStep_softwareOnly (p : ProgPos) (r : Response) (s : State) : SoftwareOnly s (progStep p r s).1 := by
  cases p with
  | rest | pollFlush | pollAvail | pollOvr => exact ⟨rfl, .inl rfl⟩
  | drainPop bytes =>
    simp only [progStep]
    split <;> exact ⟨rfl, .inl rfl⟩
  | pollPop =>
    simp only [progStep]
    split
    · exact dispatchByte_softwareOnly _ s
    · exact ⟨rfl, .inl rfl⟩
  | pollElapsed =>
    simp only [progStep]
    split <;> exact ⟨rfl, .inl rfl⟩
  | pollTot why a o =>
    cases why with
    | onCommand => exact ⟨rfl, .inl rfl⟩
    | periodic e => exact ⟨rfl, .inr ⟨e, rfl⟩⟩

/-- The software reacts, once it has taken its inputs, and the command it issues is presented to the idle port C. -/
theorem react_next {s t : State} {e : Env} {x : Reaction} (hidle : s.seq = .idle)
    (hsoft : SoftwareOnly (s.setEnv e) x.1) (h : react x = .next t) :
    ∃ s', Prepared .c s s' ∧ TurnEffect .c s' t := by
  obtain ⟨s', o⟩ := x
  obtain ⟨hcon, htick⟩ := hsoft
  refine ⟨s', ⟨s'.con, e, hcon, fun hc => absurd rfl hc, htick⟩, ?_⟩
  cases o with
  | none => cases h; exact .passed .c _
  | some i => exact present_next (fun _ => (congrArg State.seq hcon).trans hidle) h

/-! ### The turns -/

theorem consumerIdleTurn_next {s t : State} (hidle : s.seq = .idle) (h : consumerIdleTurn s = .next t) :
    ∃ s', Prepared .c s s' ∧ TurnEffect .c s' t := by
  unfold consumerIdleTurn at h
  split at h
  · split at h
    · cases h
      exact ⟨s, prepared_setEnv .c s s.env, .passed .c s⟩
    next x ts _ => exact ⟨s.setTasks ts, prepared_setEnv .c s _, present_next (fun _ => hidle) h⟩
    next ts _ => exact react_next (e := { s.env with tasks := ts }) hidle ⟨rfl, .inl rfl⟩ h
    next ts _ => exact react_next (e := { s.env with tasks := ts }) hidle ⟨rfl, .inl rfl⟩ h
  · split at h
    · cases h
      exact ⟨s, prepared_setEnv .c s s.env, .passed .c s⟩
    · exact react_next (e := s.env) hidle (progStep_softwareOnly _ _ s) h

theorem consumerTurn_next {s t : State} (h : consumerTurn s = .next t) :
    ∃ s', Prepared .c s s' ∧ TurnEffect .c s' t := by
  unfold consumerTurn at h
  split at h
  · exact ⟨s, prepared_setEnv .c s s.env, exec_inFlight_next ‹_› h⟩
  · exact consumerIdleTurn_next (instr_eq_none_iff.mp ‹_›) h

theorem producerTurn_next {s t : State} (h : producerTurn s = .next t) :
    ∃ s', Prepared .p s s' ∧ TurnEffect .p s' t := by
  unfold producerTurn at h
  split at h
  · cases h
    exact ⟨s, prepared_setEnv .p s s.env, .passed .p s⟩
  next x xs _ => exact ⟨s.setReqP xs, prepared_setEnv .p s _, present_next nofun h⟩

theorem timerTurn_next {s t : State} (h : timerTurn s = .next t) : ∃ s', Prepared .t s s' ∧ TurnEffect .t s' t := by
  unfold timerTurn at h
  split at h
  · cases h
    exact ⟨s, prepared_setEnv .t s s.env, .passed .t s⟩
  next x xs _ => exact ⟨s.setReqT xs, prepared_setEnv .t s _, present_next nofun h⟩

theorem turn_next {who : Ctx} {s t : State} (h : turn who s = .next t) :
    ∃ s', Prepared who s s' ∧ TurnEffect who s' t := by
  cases who with
  | c => exact consumerTurn_next h
  | p => exact producerTurn_next h
  | t => exact timerTurn_next h

/-- Everything a scheduled turn can do (R188). -/
theorem step_next {who : Ctx} {later : List Ctx} {s t : State} (hsched : s.env.sched = who :: later)
    (h : step s = .next t) : ∃ s', Prepared who s s' ∧ TurnEffect who s' t := by
  simp only [step, scheduledTurn, hsched] at h
  exact turn_next (s := s.setSched later) h

/-- Everything a step can do: nothing without a scheduled turn, or that turn (R188). -/
theorem step_cases {s t : State} (h : step s = .next t) :
    t = s ∨ ∃ who later s', s.env.sched = who :: later ∧ Prepared who s s' ∧ TurnEffect who s' t := by
  cases hsched : s.env.sched with
  | nil =>
    simp only [step, scheduledTurn, hsched] at h
    cases h
    exact .inl rfl
  | cons who later =>
    obtain ⟨s', hprep, heff⟩ := step_next hsched h
    exact .inr ⟨who, later, s', rfl, hprep, heff⟩

/-- Whatever the software and the inputs keep and each effect keeps, every step keeps. -/
theorem step_keeps {P : State → Prop} (hprep : ∀ who s s', Prepared who s s' → P s → P s')
    (heff : ∀ who s t, TurnEffect who s t → P s → P t) {s t : State} (hs : P s) (h : step s = .next t) : P t := by
  rcases step_cases h with rfl | ⟨who, later, s', -, hp, he⟩
  · exact hs
  · exact heff who s' t he (hprep who s s' hp hs)

end Sys2Proof.Machine
end

section
/-! SUPPORT. Moving `tail` forward over bytes held, which is what POP and FLUSH do (R37 (c), R115, R117), and the ranges
of the counters (R25, R26, R29). -/

namespace Sys2Proof.Machine

/-- The index of any byte counted from `tail` on, held or not. -/
theorem heldIndex_toNat_mod (s : State) (j : Nat) : (s.heldIndex j).toNat = (s.tail.toNat + j) % s.cfg.capacity := by
  have hidx : s.cfg.idxW ≤ 32 := Nat.le_trans s.cfg.idxW_le (by decide)
  rw [State.heldIndex, add_and_mask_toNat, BitVec.toNat_ofNat, Nat.add_mod, Config.capacity, mod_word_mod hidx,
    ← Nat.add_mod]

theorem inRange_heldIndex (s : State) (j : Nat) : s.inRange (s.heldIndex j) = true := by
  rw [inRange_iff, heldIndex_toNat_mod]
  exact Nat.mod_lt _ (Nat.lt_of_lt_of_le (by decide) s.cfg.two_le_capacity)

/-- A cursor stays in range when it moves on (R37 (a), R110). -/
theorem inRange_cursorSucc (s : State) (x : Word) : s.inRange (cursorSucc s.mask x) = true := by
  rw [inRange_iff, cursorSucc, and_mask_toNat]
  exact Nat.mod_lt _ (Nat.lt_of_lt_of_le (by decide) s.cfg.two_le_capacity)

theorem heldIndex_zero {s : State} (ht : s.inRange s.tail = true) : s.heldIndex 0 = s.tail := by
  apply BitVec.eq_of_toNat_eq
  rw [heldIndex_toNat_mod, Nat.add_zero, Nat.mod_eq_of_lt (inRange_iff.mp ht)]

/-- Counted from a `tail` that has passed `k` bytes, the `j`-th byte is the former `k + j`-th. -/
theorem heldIndex_setTail (s : State) (k j : Nat) : (s.setTail (s.heldIndex k)).heldIndex j = s.heldIndex (k + j) := by
  apply BitVec.eq_of_toNat_eq
  rw [heldIndex_toNat_mod, heldIndex_toNat_mod, State.setTail_tail, heldIndex_toNat_mod, State.setTail_cfg,
    Nat.mod_add_mod, Nat.add_assoc]

/-- A cursor value is the index of the byte as many places after `tail` as the cursor difference says (R111). -/
theorem heldIndex_cursorDiff {s : State} {h : Word} (hh : s.inRange h = true) (ht : s.inRange s.tail = true) :
    s.heldIndex (cursorDiff s.mask h s.tail).toNat = h := by
  rw [inRange_iff] at hh ht
  have hd := cursorDiff_toNat hh ht
  have hi := heldIndex_toNat (j := (cursorDiff s.mask h s.tail).toNat) ht (by split at hd <;> omega)
  apply BitVec.eq_of_toNat_eq
  split at hd <;> split at hi <;> omega

/-- A cursor that is not `tail` lies at least one byte after it. -/
theorem cursorDiff_pos {s : State} {h : Word} (hh : s.inRange h = true) (ht : s.inRange s.tail = true)
    (hne : h ≠ s.tail) : 0 < (cursorDiff s.mask h s.tail).toNat := by
  rw [inRange_iff] at hh ht
  have hd := cursorDiff_toNat hh ht
  have hne' := BitVec.toNat_ne.mp hne
  split at hd <;> omega

/-- A snapshot of `head` is the index of a byte held or of the slot after the newest (R38 (a)). -/
theorem snapshotOk_iff {s : State} {h : Word} :
    s.snapshotOk h = true ↔ s.inRange h = true ∧ (cursorDiff s.mask h s.tail).toNat ≤ s.available.toNat := by
  simp only [State.snapshotOk, Bool.and_eq_true, decide_eq_true_eq]

/-- With `tail` moved over `k` of the bytes held, the others are held. -/
theorem available_setTail {s : State} {k : Nat} (hs : s.Inv) (hk : k ≤ s.available.toNat) :
    (s.setTail (s.heldIndex k)).available.toNat = s.available.toNat - k := by
  obtain ⟨hh, ht, ha⟩ := cursors_of_inv hs
  have hcap := available_lt_capacity hs
  have hi := heldIndex_toNat (j := k) ht (by omega)
  have hd := cursorDiff_toNat hh (inRange_iff.mp (inRange_heldIndex s k))
  change (cursorDiff s.mask s.head (s.heldIndex k)).toNat = _
  split at ha <;> split at hi <;> split at hd <;> omega

/-- A byte held lies in a slot that has been written (R37 (c)). -/
theorem isSome_slot_heldIndex {s : State} (hs : s.Inv) {j : Nat} (hj : j < s.available.toNat) :
    (s.slot (s.heldIndex j)).isSome = true :=
  List.all_eq_true.mp hs.heldWritten j (List.mem_range.mpr hj)

/-- The bytes held once `tail` has moved over `k` of them are the rest, in order. -/
theorem contents_setTail {s : State} {k : Nat} (hs : s.Inv) (hk : k ≤ s.available.toNat) :
    (s.setTail (s.heldIndex k)).contents = s.contents.drop k := by
  have hfirst : ((List.range k).filterMap fun j => s.slot (s.heldIndex j)).length = k := by
    rw [List.filterMap_length_eq_length.mpr fun j hj => isSome_slot_heldIndex hs ?_, List.length_range]
    exact Nat.lt_of_lt_of_le (List.mem_range.mp hj) hk
  have hsplit : s.contents =
      (List.range k).filterMap (fun j => s.slot (s.heldIndex j)) ++ (s.setTail (s.heldIndex k)).contents := by
    have hrange : List.range s.available.toNat = List.range k ++ (List.range (s.available.toNat - k)).map (k + ·) := by
      rw [← List.range_add, Nat.add_sub_cancel' hk]
    simp only [State.contents, hrange, available_setTail hs hk, List.filterMap_append, List.filterMap_map,
      heldIndex_setTail]
    rfl
  rw [hsplit, List.drop_left' hfirst]

theorem heldWritten_setTail {s : State} {k : Nat} (hs : s.Inv) (hk : k ≤ s.available.toNat) :
    (s.setTail (s.heldIndex k)).heldWritten = true := by
  refine List.all_eq_true.mpr fun j hj => ?_
  rw [available_setTail hs hk, List.mem_range] at hj
  rw [heldIndex_setTail]
  exact isSome_slot_heldIndex hs (by omega)

theorem fits_iff {n : Nat} {x : Word} : fits n x = true ↔ x.toNat < 2 ^ n := decide_eq_true_iff

theorem fits_zero (n : Nat) : fits n 0 = true := fits_iff.mpr (Nat.two_pow_pos n)

/-- A sum of `n` bits is a value of `n` bits. -/
theorem fits_addN {n : Nat} (hn : n ≤ 32) (a b : Word) : fits n (addN n a b) = true := by
  rw [fits_iff, addN, and_lowMask_toNat hn]
  exact Nat.mod_lt _ (Nat.two_pow_pos n)

/-- The saturating increment of R112. -/
theorem satIncN_toNat {n : Nat} (hn : n ≤ 32) (a : Word) :
    (satIncN n a).toNat = if a.toNat < 2 ^ n - 1 then a.toNat + 1 else a.toNat := by
  have hword : 2 ^ n ≤ 2 ^ 32 := Nat.pow_le_pow_right (by decide) hn
  have hone : (1 : Word).toNat = 1 := rfl
  unfold satIncN
  split
  · rw [BitVec.toNat_add_of_lt (by omega), hone]
  · rfl

theorem le_satIncN {n : Nat} (hn : n ≤ 32) (a : Word) : a.toNat ≤ (satIncN n a).toNat := by
  rw [satIncN_toNat hn]
  split <;> omega

theorem fits_satIncN {n : Nat} (hn : n ≤ 32) {a : Word} (ha : fits n a = true) : fits n (satIncN n a) = true := by
  rw [fits_iff] at ha ⊢
  rw [satIncN_toNat hn]
  split <;> omega

end Sys2Proof.Machine
end

section
/-! SUPPORT. What an effect leaves to other contexts (R30), and what it does to the counters (R25 to R27). -/

namespace Sys2Proof.Machine

/-- No effect writes the configuration, and each writes its own context's fields only (R30). -/
theorem TurnEffect.frame {who : Ctx} {s t : State} (h : TurnEffect who s t) :
    t.cfg = s.cfg ∧
    (who ≠ .p → t.storage = s.storage ∧ t.head = s.head ∧ t.overrunCount = s.overrunCount ∧
      t.totalReceivedCount = s.totalReceivedCount ∧ t.rsp.p = s.rsp.p) ∧
    (who ≠ .c → t.tail = s.tail ∧ t.seq = s.seq ∧ t.con = s.con ∧ t.rsp.c = s.rsp.c) ∧
    (who ≠ .t → t.ticks = s.ticks ∧ t.rsp.t = s.rsp.t) := by
  cases h with
  | passed => simp
  | answered => cases who <;> simp
  | dropped | stored | ticked | moved | finished | popped | flushed => simp [State.storeByte]

/-- What an effect does to the two counters and to the responses of port P (R25, R26). -/
theorem TurnEffect.counters {who : Ctx} {s t : State} (h : TurnEffect who s t) :
    (t.overrunCount = s.overrunCount ∧ fullCount t.rsp.p = fullCount s.rsp.p ∧
      (t.totalReceivedCount = s.totalReceivedCount ∨
        (who = .p ∧ t.totalReceivedCount = addN s.cfg.cntW s.totalReceivedCount 1))) ∨
    (who = .p ∧ t.overrunCount = satIncN s.cfg.cntW s.overrunCount ∧ t.rsp.p = ⟨.full, 0⟩ :: s.rsp.p ∧
      t.totalReceivedCount = addN s.cfg.cntW s.totalReceivedCount 1) := by
  cases h with
  | answered _ _ hr => cases who <;> simp [fullCount, hr]
  | dropped => exact .inr ⟨rfl, rfl, rfl, rfl⟩
  | stored => exact .inl ⟨rfl, rfl, .inr ⟨rfl, rfl⟩⟩
  | passed | ticked | moved | finished | popped | flushed => exact .inl ⟨rfl, rfl, .inl rfl⟩

theorem TurnEffect.keeps_overrunExact {who : Ctx} {s t : State} (h : TurnEffect who s t) (hs : s.OverrunExact) :
    t.OverrunExact := by
  obtain ⟨hcfg, -⟩ := h.frame
  unfold State.OverrunExact at hs ⊢
  rw [hcfg]
  rcases h.counters with ⟨hovr, hcount, -⟩ | ⟨-, hovr, hrsp, -⟩
  · rw [hovr, hcount, hs]
  · have hcount : fullCount t.rsp.p = fullCount s.rsp.p + 1 := by
      rw [hrsp, fullCount, List.countP_cons_of_pos rfl, fullCount]
    have hinc := satIncN_toNat s.cfg.cntW_le s.overrunCount
    rw [hovr, hcount]
    split at hinc <;> omega

end Sys2Proof.Machine
end

section
/-! SUPPORT. What an effect does to the bytes held (R38, R219). -/

namespace Sys2Proof.Machine

theorem slot_storeByte (s : State) (b : Byte) (a : Word) :
    (s.storeByte b).slot a = if a = s.head then some b else s.slot a :=
  slot_setStorage_write s s.head a b

/-- PUSH into a buffer that is not full stores its byte (R114). -/
theorem exec_push_of_room (b : Byte) {s : State} (hs : s.Inv) (hroom : cursorSucc s.mask s.head ≠ s.tail) :
    exec (.push b) s = .next (((s.storeByte b).setTotalReceivedCount
      (addN s.cfg.cntW s.totalReceivedCount 1)).respond .p okDone) := by
  rcases execPush_cases b s with ⟨hfull, -⟩ | ⟨-, -, hpush⟩ | ⟨-, hnoSlot, -⟩
  · exact absurd hfull hroom
  · exact hpush
  · simp [hasSlot_of_inRange hs.headInRange] at hnoSlot

theorem contents_storeByte (b : Byte) {s : State} (hs : s.Inv) (hroom : cursorSucc s.mask s.head ≠ s.tail) :
    (s.storeByte b).contents = s.contents ++ [b] := by
  obtain ⟨t, hpush, hcontents, -⟩ := push_appends_of_room b hs hroom
  cases (exec_push_of_room b hs hroom).symm.trans hpush
  exact hcontents

/-- The new `tail` of FLUSH lies `k` bytes further, for some `k` of the bytes held (R117). -/
theorem flush_passes_held {s : State} {h : Word} (hs : s.Inv) (hq : s.seq = .flushF2 h) :
    ∃ k ≤ s.available.toNat, h = s.heldIndex k := by
  have hok := hs.seqOk
  simp only [State.seqOk, hq] at hok
  obtain ⟨hin, hle⟩ := snapshotOk_iff.mp hok
  exact ⟨_, hle, (heldIndex_cursorDiff hin hs.tailInRange).symm⟩

/-- The new `tail` of POP lies one byte further, and at least one is held (R115). -/
theorem pop_passes_held {s : State} {h t : Word} {b : Byte} (hs : s.Inv) (hq : s.seq = .popC4 h t b) :
    ∃ k ≤ s.available.toNat, cursorSucc s.mask t = s.heldIndex k := by
  have hok := hs.seqOk
  simp only [State.seqOk, hq, Bool.and_eq_true, decide_eq_true_eq] at hok
  obtain ⟨⟨⟨hsnap, htail⟩, hne⟩, -⟩ := hok
  obtain ⟨hin, hle⟩ := snapshotOk_iff.mp hsnap
  have hpos := cursorDiff_pos hin hs.tailInRange (htail ▸ hne)
  exact ⟨1, by omega, htail ▸ rfl⟩

/-- An effect of P or T only adds bytes behind those held (R38, R219). -/
theorem TurnEffect.contents_grow_behind {who : Ctx} {s t : State} (h : TurnEffect who s t) (hs : s.Inv)
    (hwho : who ≠ .c) : s.contents <+: t.contents := by
  cases h with
  | passed | answered | dropped | ticked => exact ⟨[], List.append_nil _⟩
  | stored _ b hroom => exact ⟨[b], (contents_storeByte b hs hroom).symm⟩
  | moved | finished | popped | flushed => exact absurd rfl hwho

/-- An effect of C or T only removes bytes from the front (R38, R219). -/
theorem TurnEffect.contents_shrink_in_front {who : Ctx} {s t : State} (h : TurnEffect who s t) (hs : s.Inv)
    (hwho : who ≠ .p) : t.contents <:+ s.contents := by
  have hdrop : ∀ k ≤ s.available.toNat, (s.setTail (s.heldIndex k)).contents <:+ s.contents := fun k hk =>
    contents_setTail hs hk ▸ List.drop_suffix k s.contents
  cases h with
  | passed | answered | ticked | moved | finished => exact List.suffix_refl s.contents
  | dropped | stored => exact absurd rfl hwho
  | popped _ hq =>
    obtain ⟨k, hk, htail⟩ := pop_passes_held hs hq
    exact htail ▸ hdrop k hk
  | flushed _ hq =>
    obtain ⟨k, hk, htail⟩ := flush_passes_held hs hq
    exact htail ▸ hdrop k hk

end Sys2Proof.Machine
end

section
/-! SUPPORT. The invariant of R37: construction establishes it, and preparation and effect of a turn keep it. -/

namespace Sys2Proof.Machine

/-- The invariant does not speak of the inputs. -/
theorem State.Inv.setEnv {s : State} (hs : s.Inv) (e : Env) : (s.setEnv e).Inv := { hs with }

/-- The invariant does not speak of the responses. -/
theorem State.Inv.respond {s : State} (hs : s.Inv) (port : Ctx) (r : Response) : (s.respond port r).Inv := { hs with }

theorem Prepared.keeps_inv {who : Ctx} {s s' : State} (h : Prepared who s s') (hs : s.Inv) : s'.Inv := by
  obtain ⟨k, e, rfl, -, htick⟩ := h
  have hfits : fits s.cfg.tickW k.lastReportTick = true := by
    rcases htick with heq | ⟨x, heq⟩
    · exact heq ▸ hs.reportTickFits
    · exact heq ▸ fits_addN s.cfg.tickW_le _ x
  exact { hs with reportTickFits := hfits }

theorem slotsExist_write {s : State} {i : Word} {b : Byte} (hs : s.slotsExist = true) (hi : s.inRange i = true) :
    (s.setStorage (Memory.write s.storage i.toNat b)).slotsExist = true := by
  refine List.all_eq_true.mpr fun cell hcell => ?_
  rcases Memory.mem_write hcell with rfl | hmem
  · exact hi
  · exact List.all_eq_true.mp hs cell hmem

/-- The byte stored is written and every byte held before stays written (R37 (c)). -/
theorem heldWritten_storeByte (b : Byte) {s : State} (hs : s.Inv) (hroom : cursorSucc s.mask s.head ≠ s.tail) :
    (s.storeByte b).heldWritten = true := by
  have havail : (s.storeByte b).available.toNat = s.available.toNat + 1 := cursorDiff_succ_head hs hroom
  refine List.all_eq_true.mpr fun j hj => ?_
  rw [havail, List.mem_range] at hj
  rw [slot_storeByte]
  split
  · rfl
  · rename_i hne
    have hidx : j ≠ s.available.toNat := fun heq => hne (heq ▸ heldIndex_available hs)
    exact isSome_slot_heldIndex hs (by omega)

/-- A snapshot of `head` stays good when `head` moves away from it (R38 (a)). -/
theorem snapshotOk_storeByte (b : Byte) {s : State} {h : Word} (hs : s.Inv)
    (hroom : cursorSucc s.mask s.head ≠ s.tail) (hh : s.snapshotOk h = true) : (s.storeByte b).snapshotOk h = true := by
  have havail : (s.storeByte b).available.toNat = s.available.toNat + 1 := cursorDiff_succ_head hs hroom
  obtain ⟨hin, hle⟩ := snapshotOk_iff.mp hh
  exact snapshotOk_iff.mpr ⟨hin, havail ▸ Nat.le_succ_of_le hle⟩

/-- The slot of a POP past its c3 is not the one PUSH stores to: a byte is held there (R37 (d)). -/
theorem tail_ne_head_of_snapshot {s : State} {h : Word} (hs : s.Inv) (hh : s.snapshotOk h = true) (hne : h ≠ s.tail) :
    s.tail ≠ s.head := by
  obtain ⟨hin, hle⟩ := snapshotOk_iff.mp hh
  have hpos := cursorDiff_pos hin hs.tailInRange hne
  exact heldIndex_zero hs.tailInRange ▸ heldIndex_ne_head hs (Nat.lt_of_lt_of_le hpos hle)

/-- A PUSH between two micro-steps leaves the latches good (R38). -/
theorem seqOk_storeByte (b : Byte) {s : State} (hs : s.Inv) (hroom : cursorSucc s.mask s.head ≠ s.tail) :
    (s.storeByte b).seqOk = true := by
  have hseq : (s.storeByte b).seq = s.seq := rfl
  have hok := hs.seqOk
  unfold State.seqOk at hok ⊢
  rw [hseq]
  cases hq : s.seq with
  | popC2 h | availA2 h | flushF2 h =>
    simp only [hq] at hok ⊢
    exact snapshotOk_storeByte b hs hroom hok
  | popC3 h t =>
    simp only [hq, Bool.and_eq_true] at hok ⊢
    obtain ⟨⟨hsnap, htail⟩, hne⟩ := hok
    exact ⟨⟨snapshotOk_storeByte b hs hroom hsnap, htail⟩, hne⟩
  | popC4 h t x =>
    simp only [hq, Bool.and_eq_true, decide_eq_true_eq] at hok ⊢
    obtain ⟨⟨⟨hsnap, rfl⟩, hne⟩, hslot⟩ := hok
    refine ⟨⟨⟨snapshotOk_storeByte b hs hroom hsnap, rfl⟩, hne⟩, ?_⟩
    rw [slot_storeByte, if_neg (tail_ne_head_of_snapshot hs hsnap hne), hslot]
  | delayD1 | delayD2 | elapsedE1 =>
    simp only [hq] at hok ⊢
    exact hok
  | idle | popC1 | availA1 | flushF1 | rdovrR1 | rdtotT1 | nowN1 => rfl

theorem snapshotOk_head {s : State} (hs : s.Inv) : s.snapshotOk s.head = true :=
  snapshotOk_iff.mpr ⟨hs.headInRange, le_rfl⟩

/-- Context C goes on with good latches (R33, R38). -/
theorem Follows.seqOk {s : State} {q : Seq} (h : Follows s q) (hs : s.Inv) : (s.setSeq q).seqOk = true := by
  have hok := hs.seqOk
  cases h with
  | @accepted i _ _ hwf =>
    cases i with
    | delay | elapsed => exact hwf
    | push | pop | avail | flush | rdovr | rdtot | tick | now => rfl
  | popHead | availHead | flushHead => exact snapshotOk_head (s := s) hs
  | popTail hq hne =>
    simp only [State.seqOk, hq] at hok
    simp only [State.seqOk, State.setSeq_seq, Bool.and_eq_true, decide_eq_true_eq]
    exact ⟨⟨hok, rfl⟩, hne⟩
  | popSlot hq hslot =>
    simp only [State.seqOk, hq, Bool.and_eq_true, decide_eq_true_eq] at hok
    simp only [State.seqOk, State.setSeq_seq, Bool.and_eq_true, decide_eq_true_eq]
    exact ⟨hok, hslot⟩
  | delayStart hq =>
    simp only [State.seqOk, hq] at hok
    simp only [State.seqOk, State.setSeq_seq, Bool.and_eq_true]
    exact ⟨⟨hok, hs.ticksFit⟩, rfl⟩
  | delayPoll hq =>
    simp only [State.seqOk, hq, Bool.and_eq_true] at hok
    simp only [State.seqOk, State.setSeq_seq, Bool.and_eq_true]
    exact ⟨hok.1, hs.ticksFit⟩

/-- With `tail` moved over bytes held and port C idle again, as POP.c4 and FLUSH.f2 leave it. -/
theorem State.Inv.advanceTail {s : State} (hs : s.Inv) {k : Nat} (hk : k ≤ s.available.toNat) :
    ((s.setTail (s.heldIndex k)).setSeq .idle).Inv :=
  { hs with
    tailInRange := inRange_heldIndex s k
    heldWritten := heldWritten_setTail hs hk
    seqOk := rfl }

theorem TurnEffect.keeps_inv {who : Ctx} {s t : State} (h : TurnEffect who s t) (hs : s.Inv) : t.Inv := by
  have htotal := fits_addN s.cfg.cntW_le s.totalReceivedCount 1
  cases h with
  | passed => exact hs
  | answered => exact hs.respond _ _
  | dropped => exact { hs with overrunFits := fits_satIncN s.cfg.cntW_le hs.overrunFits, totalFits := htotal }
  | stored _ b hroom =>
    exact { hs with
      storageWf := Memory.wf_write hs.storageWf _ _
      slotsExist := slotsExist_write hs.slotsExist hs.headInRange
      headInRange := inRange_cursorSucc s s.head
      totalFits := htotal
      heldWritten := heldWritten_storeByte b hs hroom
      seqOk := seqOk_storeByte b hs hroom }
  | ticked => exact { hs with ticksFit := fits_addN s.cfg.tickW_le _ _ }
  | moved _ hq => exact { hs with seqOk := hq.seqOk hs }
  | finished => exact { hs with seqOk := rfl }
  | popped _ hq =>
    obtain ⟨k, hk, htail⟩ := pop_passes_held hs hq
    exact htail ▸ (hs.advanceTail hk).respond _ _
  | flushed _ hq =>
    obtain ⟨k, hk, htail⟩ := flush_passes_held hs hq
    exact htail ▸ (hs.advanceTail hk).respond _ _

/-- Nothing is held right after construction, and every counter is 0 (R36). -/
theorem construct_inv {cfg : Config} (hcfg : cfg.legal = true) : (State.construct cfg).Inv := by
  have hcap : (0 : Word).toNat < cfg.capacity := Nat.lt_of_lt_of_le (by decide) cfg.two_le_capacity
  have hlegal := hcfg
  simp only [Config.legal, Bool.and_eq_true] at hlegal
  obtain ⟨⟨⟨hinit, -⟩, -⟩, -⟩ := hlegal
  have hnone : (State.construct cfg).available.toNat = 0 := by
    simp [State.available, available, cursorDiff, State.construct]
  exact {
    cfgLegal := hcfg
    storageWf := rfl
    slotsExist := rfl
    headInRange := inRange_iff.mpr hcap
    tailInRange := inRange_iff.mpr hcap
    overrunFits := fits_zero _
    totalFits := fits_zero _
    ticksFit := hinit
    heldWritten := by rw [State.heldWritten, hnone]; rfl
    seqOk := rfl
    reportTickFits := fits_zero _ }

end Sys2Proof.Machine
end

section
/-! PROOFS. The statements about the state, reset and invariants. -/

namespace Sys2Proof

open Machine

/-- Settles O37: each effect of a turn writes the fields of its own context, and the preparation of the turn writes the
inputs and, in context C, the software's own variables. -/
theorem everyFieldHasOneWritingContext : Obligations.EveryFieldHasOneWritingContext := by
  intro s t who later hsched hstep
  obtain ⟨s', ⟨k, e, rfl, hk, -⟩, heff⟩ := step_next hsched hstep
  obtain ⟨hcfg, hp, hc, ht⟩ := heff.frame
  refine ⟨hcfg, hp, fun hwho => ?_, ht⟩
  obtain ⟨htail, hseq, hcon, hrsp⟩ := hc hwho
  exact ⟨htail, hseq, hcon.trans (hk hwho), hrsp⟩

/-- Settles O44: the count of FULL responses grows exactly with the saturating increment. -/
theorem stepKeepsOverrunCountExact : Obligations.StepKeepsOverrunCountExact := by
  intro s t hs hstep
  refine step_keeps (P := State.OverrunExact) (fun who s s' hprep hs => ?_) (fun who s t heff => ?_) hs hstep
  · obtain ⟨k, e, rfl, -⟩ := hprep
    exact hs
  · exact heff.keeps_overrunExact

/-- Settles O42: the preparation of a turn keeps the invariant, and so does each of its effects. -/
theorem stepKeepsTheInvariant : Obligations.StepKeepsTheInvariant := by
  intro s t hs hstep
  exact step_keeps (P := State.Inv) (fun _ _ _ hprep => hprep.keeps_inv) (fun _ _ _ heff => heff.keeps_inv) hs hstep

/-- Settles O17: PUSH writes the slot that `head` names, and no byte held lies there. -/
theorem pushNeverWritesAHeldSlot : Obligations.PushNeverWritesAHeldSlot := by
  intro b s t hs hpush j hj
  cases exec_push_next hpush with
  | passed | answered | dropped => rfl
  | stored _ b' => exact (slot_storeByte s b' (s.heldIndex j)).trans (if_neg (heldIndex_ne_head hs hj))

/-- Settles O45: both counters move in the two effects of PUSH alone, and the saturating increment never decreases. -/
theorem countersMoveOnlyByTheirIncrements : Obligations.CountersMoveOnlyByTheirIncrements := by
  intro s t hstep
  rcases step_cases hstep with rfl | ⟨who, later, s', hsched, ⟨k, e, rfl, -⟩, heff⟩
  · exact ⟨.inl rfl, Nat.le_refl _, .inl rfl⟩
  · rcases heff.counters with ⟨hovr, -, htotal⟩ | ⟨rfl, hovr, hrsp, htotal⟩
    · refine ⟨.inl hovr, hovr ▸ Nat.le_refl _, htotal.imp_right ?_⟩
      rintro ⟨rfl, hinc⟩
      exact ⟨hinc, later, hsched⟩
    · have hle := le_satIncN s.cfg.cntW_le s.overrunCount
      exact ⟨.inr ⟨hovr, hrsp, htotal⟩, hovr ▸ hle, .inr ⟨htotal, later, hsched⟩⟩

/-- Settles O46: the preparation of a turn leaves the bytes held alone, and PUSH, POP and FLUSH are the effects
that move a cursor. -/
theorem onlyTheConsumerRemovesBytes : Obligations.OnlyTheConsumerRemovesBytes := by
  intro s t who later hs hsched hstep
  obtain ⟨s', hprep, heff⟩ := step_next hsched hstep
  have hs' := hprep.keeps_inv hs
  obtain ⟨k, e, rfl, -⟩ := hprep
  exact ⟨heff.contents_grow_behind hs', heff.contents_shrink_in_front hs'⟩

/-- Settles O12: `j` in flight is neither the idle port nor `i` itself, the two cases in which `exec i` acts. -/
theorem busyPortAcceptsNothing : Obligations.BusyPortAcceptsNothing := by
  intro i j s hctx hj hne
  exact exec_of_busy hctx (by simp [hj]) (by simpa [hj] using hne)

/-- Settles O39: each value is the one that `State.construct` writes out. -/
theorem resetValues : Obligations.ResetValues := by
  intro cfg
  exact ⟨rfl, fun _ => rfl, rfl, rfl, rfl, rfl, rfl, rfl, rfl, rfl, rfl, rfl, rfl, rfl, rfl, rfl, rfl⟩

/-- Settles O40: only the idle position has no operation in flight. -/
theorem latchesHoldNoValueWhileIdle : Obligations.LatchesHoldNoValueWhileIdle := by
  intro q hq
  obtain rfl := instr_eq_none_iff.mp hq
  exact ⟨rfl, rfl, rfl, rfl, rfl, rfl, rfl⟩

/-- Settles O41: the constructed block meets the invariant, which does not speak of the inputs. -/
theorem constructedBlockMeetsTheInvariant : Obligations.ConstructedBlockMeetsTheInvariant := by
  refine ⟨construct_inv (by decide), fun cfg e hcfg => ⟨(construct_inv hcfg).setEnv e, ?_⟩⟩
  exact (Nat.zero_min _).symm

end Sys2Proof
end

section
/-! SUPPORT. What a command of context C can do at the idle port, at the busy port and in flight (R32, R188), and the
operations among them that write no shared state (R61). -/

namespace Sys2Proof.Machine

/-- A command of context C moves the sequencer alone, unless it is the one in flight (R32, R188; log entry 4). -/
theorem exec_c_cases {i : Instr} {s t : State} (hi : i.ctx = .c) (h : exec i s = .next t) :
    (∃ q, t = s.setSeq q) ∨ (s.seq.instr = some i ∧ TurnEffect .c s t) := by
  by_cases hidle : s.seq = .idle
  · cases (exec_of_idle hi hidle).symm.trans h
    exact .inl ⟨_, rfl⟩
  · by_cases hown : s.seq.instr = some i
    · exact .inr ⟨hown, exec_inFlight_next hown h⟩
    · cases (exec_of_busy hi (mt instr_eq_none_iff.mp hidle) hown).symm.trans h
      exact .inl ⟨s.seq, rfl⟩

/-- In context C only POP and FLUSH write shared state; any other operation moves the sequencer and may respond
(R61, R143). -/
theorem exec_c_writes_only_seq_and_rsp {i : Instr} {s t : State} (hi : i.ctx = .c) (hpop : i ≠ .pop)
    (hflush : i ≠ .flush) (h : exec i s = .next t) :
    ∃ q, t = s.setSeq q ∨ ∃ r, t = (s.setSeq q).respond .c r := by
  rcases exec_c_cases hi h with ⟨q, hq⟩ | ⟨hown, heff⟩
  · exact ⟨q, .inl hq⟩
  · cases heff with
    | passed => exact ⟨s.seq, .inl rfl⟩
    | answered => exact ⟨s.seq, .inr ⟨_, rfl⟩⟩
    | moved => exact ⟨_, .inl rfl⟩
    | finished => exact ⟨_, .inr ⟨_, rfl⟩⟩
    | popped _ hq =>
      rw [hq] at hown
      exact absurd (Option.some.inj hown).symm hpop
    | flushed _ hq =>
      rw [hq] at hown
      exact absurd (Option.some.inj hown).symm hflush

end Sys2Proof.Machine
end

section
/-! PROOFS. The frames of the operations (R52, R61). -/

namespace Sys2Proof

open Machine

/-- Settles O15: PUSH drops the byte when its test for full holds and stores it in the slot `head` names otherwise; where
it faults there is no next state. -/
theorem pushFrame : Obligations.PushFrame := by
  intro b s t h
  replace h : execPush b s = .next t := h
  have hfull : isFull s.mask s.head s.tail = true ↔ cursorSucc s.mask s.head = s.tail := beq_iff_eq
  rcases execPush_cases b s with ⟨heq, hpush⟩ | ⟨hroom, -, hpush⟩ | ⟨-, -, hpush⟩ <;> cases hpush.symm.trans h
  · refine ⟨fun _ _ => rfl, fun _ => ⟨fun _ => rfl, rfl⟩, fun hnot => ?_, rfl, rfl, rfl, rfl, rfl, rfl, rfl, rfl⟩
    exact absurd (hfull.mpr heq) (Bool.eq_false_iff.mp hnot)
  · refine ⟨fun a ha => ?_, fun hyes => absurd (hfull.mp hyes) hroom, fun _ => ⟨?_, rfl⟩,
      rfl, rfl, rfl, rfl, rfl, rfl, rfl, rfl⟩
    · exact (slot_setStorage_write s s.head a b).trans (if_neg ha)
    · exact (slot_setStorage_write s s.head s.head b).trans (if_pos rfl)

/-- Settles O32: in context P such an operation is a query, which only responds; in context C it is neither POP nor
FLUSH, so it moves the sequencer and may respond. -/
theorem queriesAndDelayWriteNoSharedState : Obligations.QueriesAndDelayWriteNoSharedState := by
  intro i s t hkind h
  have hother : (∀ b, i ≠ .push b) ∧ i ≠ .pop ∧ i ≠ .flush ∧ i ≠ .tick := by
    rcases hkind with ⟨q, rfl⟩ | ⟨q, rfl⟩ | ⟨q, rfl⟩ | ⟨q, rfl⟩ | ⟨n, rfl⟩ | ⟨q, n, rfl⟩ <;> simp
  obtain ⟨hpush, hpop, hflush, htick⟩ := hother
  cases hctx : i.ctx with
  | p =>
    rcases exec_query_p hctx s with ⟨b, hb⟩ | ⟨v, hv⟩
    · exact absurd hb (hpush b)
    · cases hv.symm.trans h
      simp [State.slot]
  | c =>
    obtain ⟨q, rfl | ⟨r, rfl⟩⟩ := exec_c_writes_only_seq_and_rsp hctx hpop hflush h <;> simp [State.slot]
  | t => exact absurd (eq_tick_of_ctx hctx) htick

end Sys2Proof
end

section
/-! SUPPORT. The decoder said once, as a relation: `decode w = .ok i` holds exactly of `w = encode i` (R84, R92). -/

namespace Sys2Proof

/-- A word and a command agree in the three fields of R81 exactly when the word encodes the command. -/
theorem encode_eq_iff {i : Instr} {w : CmdWord} :
    encode i = w ↔ CmdWord.ctx w = i.ctx.code ∧ CmdWord.opcode w = i.opcode ∧ CmdWord.operand w = i.operand := by
  constructor
  · rintro rfl
    exact ⟨CmdWord.make_ctx .., CmdWord.make_opcode .., CmdWord.make_operand ..⟩
  · rintro ⟨hctx, hop, hopd⟩
    rw [encode, ← hctx, ← hop, ← hopd, CmdWord.make_fields]

/-- A code names a context exactly when it is the code of that context (R82). -/
theorem ofCode_eq_some_iff {b : BitVec 2} {port : Ctx} : Ctx.ofCode b = some port ↔ b = port.code := by
  cases port <;> revert b <;> decide

theorem formatN_eq_ok_iff {opd : Word} {i j : Instr} : formatN opd i = .ok j ↔ opd = 0 ∧ i = j := by
  simp [formatN, ite_eq_iff]

theorem formatB_eq_ok_iff {opd : Word} {f : Byte → Instr} {j : Instr} :
    formatB opd f = .ok j ↔ highOf opd = 0 ∧ f (imm8Of opd) = j := by
  simp [formatB, ite_eq_iff]

/-- An operand is its byte of format B below its high part (R83). -/
theorem highOf_append_imm8Of (opd : Word) : highOf opd ++ imm8Of opd = opd :=
  BitVec.extractLsb'_append_extractLsb' (w := 24) (len := 8)

/-- Each branch of the decoder that answers a command has tested the opcode, and its format the operand (R83, R92). -/
theorem fields_of_decode {w : CmdWord} {i : Instr} (h : decode w = .ok i) :
    CmdWord.opcode w = i.opcode ∧ CmdWord.operand w = i.operand := by
  have hbyte := highOf_append_imm8Of (CmdWord.operand w)
  unfold decode at h
  cases hc : Ctx.ofCode (CmdWord.ctx w) with
  | none => simp [hc] at h
  | some port =>
    cases port <;>
      simp only [hc, ite_eq_iff, formatN_eq_ok_iff, formatB_eq_ok_iff, Except.ok.injEq, reduceCtorEq, and_false,
        or_false] at h <;>
      grind [Instr.opcode, Instr.operand]

theorem decode_encode (i : Instr) : decode (encode i) = .ok i := by
  cases i with
  | push b =>
    have hhigh : highOf (0#24 ++ b) = 0#24 := highOf_append b
    have hbyte : imm8Of (0#24 ++ b) = b := imm8Of_append b
    simp [decode, encode, Instr.ctx, Instr.opcode, Instr.operand, formatB_eq_ok_iff, hhigh, hbyte]
  | pop | flush | tick | delay =>
    simp [decode, encode, Instr.ctx, Instr.opcode, Instr.operand, formatN_eq_ok_iff]
  | avail q | rdovr q | rdtot q | now q | elapsed q =>
    cases q <;> simp [decode, encode, Instr.ctx, QueryCtx.toCtx, Instr.opcode, Instr.operand, formatN_eq_ok_iff]

theorem decode_eq_ok_iff {w : CmdWord} {i : Instr} : decode w = .ok i ↔ encode i = w := by
  constructor
  · intro h
    exact encode_eq_iff.mpr ⟨ofCode_eq_some_iff.mp (Machine.ctx_of_decode h), fields_of_decode h⟩
  · rintro rfl
    exact decode_encode i

end Sys2Proof
end

section
/-! SUPPORT. The legal words (R83, R85, R89) as a condition on the three fields, and the rows of R84 that select them. -/

namespace Sys2Proof

/-- The context may issue the opcode (R85) and the must-be-zero bits of the operand are zero (R83). -/
def CmdWord.Legal (w : CmdWord) : Prop :=
  ∃ port, Ctx.ofCode (CmdWord.ctx w) = some port ∧ port ∈ legalContexts (CmdWord.opcode w) ∧
    CmdWord.operand w &&& mustBeZero (CmdWord.opcode w) = 0

/-- The bits that format B demands to be zero are the 24 above the byte (R83). -/
theorem and_eq_zero_iff_highOf {opd : Word} : opd &&& 0xFFFFFF00 = 0 ↔ highOf opd = 0 := by
  have hmask : (0xFFFFFF00 : Word) = BitVec.allOnes 24 ++ 0#8 := by decide
  have hand : opd &&& 0xFFFFFF00 = highOf opd ++ 0#8 := by
    calc opd &&& 0xFFFFFF00 = (highOf opd ++ imm8Of opd) &&& (BitVec.allOnes 24 ++ 0#8) := by
          rw [highOf_append_imm8Of, hmask]
      _ = highOf opd ++ 0#8 := by
          rw [BitVec.and_append, BitVec.and_allOnes, BitVec.and_zero]
  rw [hand]
  exact BitVec.append_left_inj (s₂ := 0#24) 0#8

/-- The context of every command may issue its opcode (R85). -/
theorem ctx_mem_legalContexts (i : Instr) : i.ctx ∈ legalContexts i.opcode := by
  cases i with
  | push | pop | flush | tick | delay => exact List.mem_singleton.mpr rfl
  | avail q | rdovr q | rdtot q | now q | elapsed q =>
    cases q with
    | c => exact List.mem_cons_self
    | p => exact List.mem_cons_of_mem _ List.mem_cons_self

/-- The operand of every command has its must-be-zero bits zero (R83). -/
theorem operand_and_mustBeZero (i : Instr) : i.operand &&& mustBeZero i.opcode = 0 := by
  cases i with
  | push b => exact and_eq_zero_iff_highOf.mpr (highOf_append b)
  | pop | flush | tick | avail | rdovr | rdtot | now => exact BitVec.zero_and
  | delay | elapsed => exact BitVec.and_zero

/-- With all 32 bits must-be-zero, as in format N, the operand is zero (R83). -/
theorem zero_eq_of_and_allOnes {opd : Word} (h : opd &&& BitVec.allOnes 32 = 0) : 0 = opd :=
  h.symm.trans BitVec.and_allOnes

/-- C and P, which may issue the queries, are the two query contexts (R85). -/
theorem exists_queryCtx {port : Ctx} (h : port ∈ [Ctx.c, Ctx.p]) : ∃ q : QueryCtx, q.toCtx = port := by
  cases port with
  | c => exact ⟨.c, rfl⟩
  | p => exact ⟨.p, rfl⟩
  | t => simp at h

/-- Every opcode in a context that may issue it is an operation, with every operand its format admits (R83, R85). -/
theorem exists_instr_of_legal {port : Ctx} {op : BitVec 6} {opd : Word} (hport : port ∈ legalContexts op)
    (hopd : opd &&& mustBeZero op = 0) : ∃ i : Instr, i.ctx = port ∧ i.opcode = op ∧ i.operand = opd := by
  unfold legalContexts at hport
  split_ifs at hport with hpush hconsumer htick hquery
  · cases List.mem_singleton.mp hport
    subst hpush
    have hhigh : highOf opd = 0 := and_eq_zero_iff_highOf.mp hopd
    exact ⟨.push (imm8Of opd), rfl, rfl, (congrArg (· ++ imm8Of opd) hhigh).symm.trans (highOf_append_imm8Of opd)⟩
  · cases List.mem_singleton.mp hport
    rcases hconsumer with rfl | rfl | rfl
    · exact ⟨.pop, rfl, rfl, zero_eq_of_and_allOnes hopd⟩
    · exact ⟨.flush, rfl, rfl, zero_eq_of_and_allOnes hopd⟩
    · exact ⟨.delay opd, rfl, rfl, rfl⟩
  · cases List.mem_singleton.mp hport
    subst htick
    exact ⟨.tick, rfl, rfl, zero_eq_of_and_allOnes hopd⟩
  · obtain ⟨q, rfl⟩ := exists_queryCtx hport
    rcases hquery with rfl | rfl | rfl | rfl | rfl
    · exact ⟨.avail q, rfl, rfl, zero_eq_of_and_allOnes hopd⟩
    · exact ⟨.rdovr q, rfl, rfl, zero_eq_of_and_allOnes hopd⟩
    · exact ⟨.rdtot q, rfl, rfl, zero_eq_of_and_allOnes hopd⟩
    · exact ⟨.now q, rfl, rfl, zero_eq_of_and_allOnes hopd⟩
    · exact ⟨.elapsed q opd, rfl, rfl, rfl⟩
  · simp at hport

/-- The legal words are those that decode. -/
theorem exists_decode_eq_ok_iff {w : CmdWord} : (∃ i, decode w = .ok i) ↔ CmdWord.Legal w := by
  simp only [decode_eq_ok_iff, encode_eq_iff]
  constructor
  · rintro ⟨i, hctx, hop, hopd⟩
    exact ⟨i.ctx, ofCode_eq_some_iff.mpr hctx, hop ▸ ctx_mem_legalContexts i, hop ▸ hopd ▸ operand_and_mustBeZero i⟩
  · rintro ⟨port, hctx, hport, hopd⟩
    obtain ⟨i, rfl, hiop, hiopd⟩ := exists_instr_of_legal hport hopd
    exact ⟨i, ofCode_eq_some_iff.mp hctx, hiop.symm, hiopd.symm⟩

/-! ### The rows of R84 -/

/-- A row selects a word field by field (R81, R84). -/
theorem selects_iff {r : OpcodeRow} {w : CmdWord} :
    r.selects w = true ↔ CmdWord.ctx w &&& CmdWord.ctx r.mask = CmdWord.ctx r.pattern ∧
      CmdWord.opcode w &&& CmdWord.opcode r.mask = CmdWord.opcode r.pattern ∧
      CmdWord.operand w &&& CmdWord.operand r.mask = CmdWord.operand r.pattern := by
  simp only [OpcodeRow.selects, beq_iff_eq, CmdWord.ctx, CmdWord.opcode, CmdWord.operand, ← BitVec.extractLsb'_and]
  constructor
  · intro h
    simp only [h, and_self]
  · rintro ⟨hctx, hop, hopd⟩
    rw [← CmdWord.make_fields (w &&& r.mask), ← CmdWord.make_fields r.pattern]
    exact congr (congr (congrArg CmdWord.make hctx) hop) hopd

/-- Each row of the table fixes the opcode, the must-be-zero bits of that opcode's operand (R83), and a context that may
issue it (R85). -/
theorem opcodeTable_fields : ∀ r ∈ opcodeTable,
    CmdWord.opcode r.mask = BitVec.allOnes 6 ∧ CmdWord.operand r.mask = mustBeZero (CmdWord.opcode r.pattern) ∧
    CmdWord.operand r.pattern = 0 ∧
    ∀ c : BitVec 2, c &&& CmdWord.ctx r.mask = CmdWord.ctx r.pattern ↔
      ∃ port ∈ legalContexts (CmdWord.opcode r.pattern), Ctx.ofCode c = some port := by
  decide

/-- A row selects the legal words with its opcode. -/
theorem selects_iff_legal {r : OpcodeRow} (hr : r ∈ opcodeTable) {w : CmdWord} :
    r.selects w = true ↔ CmdWord.opcode w = CmdWord.opcode r.pattern ∧ CmdWord.Legal w := by
  obtain ⟨hop, hopd, hzero, hctx⟩ := opcodeTable_fields r hr
  rw [selects_iff, hop, hopd, hzero, hctx, BitVec.and_allOnes]
  constructor
  · rintro ⟨⟨port, hport, hcode⟩, hw, hbits⟩
    exact ⟨hw, port, hcode, hw ▸ hport, hw ▸ hbits⟩
  · rintro ⟨hw, port, hcode, hport, hbits⟩
    exact ⟨⟨port, hw ▸ hport, hcode⟩, hw, hw ▸ hbits⟩

/-- Different rows have different opcodes (R84). -/
theorem row_eq_of_opcode_eq : ∀ r ∈ opcodeTable, ∀ r' ∈ opcodeTable,
    CmdWord.opcode r.pattern = CmdWord.opcode r'.pattern → r = r' := by
  decide

/-- Every operation has its row (R84). -/
theorem exists_row (i : Instr) :
    ∃ r ∈ opcodeTable, CmdWord.opcode r.pattern = i.opcode ∧ r.mnemonic = i.mnemonic := by
  cases i <;> simp only [Instr.opcode, Instr.mnemonic] <;> decide

/-- The words that decode are those a row selects (R84, R92). -/
theorem exists_decode_eq_ok_iff_selects {w : CmdWord} :
    (∃ i, decode w = .ok i) ↔ ∃ r ∈ opcodeTable, r.selects w = true := by
  constructor
  · rintro ⟨i, hi⟩
    obtain ⟨r, hr, hrow, -⟩ := exists_row i
    obtain ⟨hop, -⟩ := fields_of_decode hi
    exact ⟨r, hr, (selects_iff_legal hr).mpr ⟨hop.trans hrow.symm, exists_decode_eq_ok_iff.mp ⟨i, hi⟩⟩⟩
  · rintro ⟨r, hr, hsel⟩
    exact exists_decode_eq_ok_iff.mpr ((selects_iff_legal hr).mp hsel).2

end Sys2Proof
end

section
/-! SUPPORT. The illegal words (R89) and the turns that take one (R183, R188). -/

namespace Sys2Proof

theorem exists_error_iff {ε α : Type} {x : Except ε α} : (∃ e, x = .error e) ↔ ¬ ∃ a, x = .ok a := by
  cases x <;> simp

/-- The one check of a narrow block is of the operand of DELAY and ELAPSED (R83). -/
theorem wellFormed_iff {tickW : Nat} {i : Instr} :
    i.wellFormed tickW = true ↔ (i.opcode = 0x0A ∨ i.opcode = 0x0B → fits tickW i.operand = true) := by
  cases i <;> simp [Instr.wellFormed, Instr.opcode, Instr.operand]

/-- The words that decode in a block of a given width are the legal ones whose tick operand fits (R83, R89). -/
theorem exists_decodeFor_eq_ok_iff {tickW : Nat} {w : CmdWord} :
    (∃ i, decodeFor tickW w = .ok i) ↔ CmdWord.Legal w ∧
      (CmdWord.opcode w = 0x0A ∨ CmdWord.opcode w = 0x0B → fits tickW (CmdWord.operand w) = true) := by
  constructor
  · rintro ⟨i, h⟩
    obtain ⟨hdec, hwf⟩ := decodeFor_ok.mp h
    obtain ⟨hop, hopd⟩ := fields_of_decode hdec
    exact ⟨exists_decode_eq_ok_iff.mp ⟨i, hdec⟩, by rwa [hop, hopd, ← wellFormed_iff]⟩
  · rintro ⟨hlegal, hfits⟩
    obtain ⟨i, hdec⟩ := exists_decode_eq_ok_iff.mpr hlegal
    obtain ⟨hop, hopd⟩ := fields_of_decode hdec
    rw [hop, hopd, ← wellFormed_iff] at hfits
    exact ⟨i, decodeFor_ok.mpr ⟨hdec, hfits⟩⟩

/-- The reserved code is the one that names no context (R82). -/
theorem ofCode_eq_none_iff {b : BitVec 2} : Ctx.ofCode b = none ↔ b = 0b11 := by
  revert b
  decide

/-- The clauses of R89. That no context may issue the opcode (b) is, on a port, a case of the clause after it (c). -/
theorem not_legal_iff {w : CmdWord} :
    ¬ CmdWord.Legal w ↔ CmdWord.ctx w = 0b11 ∨ legalContexts (CmdWord.opcode w) = [] ∨
      (∃ port, Ctx.ofCode (CmdWord.ctx w) = some port ∧ port ∉ legalContexts (CmdWord.opcode w)) ∨
      CmdWord.operand w &&& mustBeZero (CmdWord.opcode w) ≠ 0 := by
  rw [← ofCode_eq_none_iff]
  cases hc : Ctx.ofCode (CmdWord.ctx w) with
  | none => simp [CmdWord.Legal, hc]
  | some port =>
    have hmem : legalContexts (CmdWord.opcode w) = [] → port ∉ legalContexts (CmdWord.opcode w) := by
      intro hnil
      simp [hnil]
    simp only [CmdWord.Legal, hc, Option.some.injEq, exists_eq_left', reduceCtorEq, false_or, not_and_or]
    exact ⟨.inr, fun h => h.elim (fun hnil => .inl (hmem hnil)) id⟩

namespace Machine

theorem step_of_sched {s : State} {who : Ctx} {later : List Ctx} (h : s.env.sched = who :: later) :
    step s = turn who (s.setSched later) := by
  simp [step, scheduledTurn, h]

theorem producerTurn_of_reqP {s : State} {x : Request} {xs : List Request} (h : s.env.reqP = x :: xs) :
    producerTurn s = present .p x (s.setReqP xs) := by
  simp [producerTurn, h]

theorem timerTurn_of_reqT {s : State} {x : Request} {xs : List Request} (h : s.env.reqT = x :: xs) :
    timerTurn s = present .t x (s.setReqT xs) := by
  simp [timerTurn, h]

/-- With port C idle and the software at rest, the next task command is presented. -/
theorem consumerTurn_of_command {s : State} {x : Request} {ts : List Task} (hidle : s.seq = .idle)
    (hrest : s.con.prog = .rest) (htasks : s.env.tasks = .command x :: ts) :
    consumerTurn s = present .c x (s.setTasks ts) := by
  simp [consumerTurn, consumerIdleTurn, hidle, hrest, htasks, Seq.instr]

end Machine

end Sys2Proof
end

section
/-! SUPPORT. The fields of the response word (R86, R87). -/

namespace Sys2Proof

/-- The four status codes are different (R87). -/
theorem Status.code_eq_code_iff {a b : Status} : a.code = b.code ↔ a = b := by
  cases a <;> cases b <;> decide

/-- `RSP[39:32]` is the status (R86). -/
theorem Response.word_status (r : Response) : r.word.extractLsb' 32 8 = r.status.code :=
  BitVec.extractLsb'_append_eq_left

/-- `RSP[31:0]` is the value (R86). -/
theorem Response.word_value (r : Response) : r.word.extractLsb' 0 32 = r.value :=
  BitVec.extractLsb'_append_eq_right

end Sys2Proof
end

section
/-! PROOFS. The statements about encoding and decoding (R81 to R92). -/

namespace Sys2Proof

open Machine

/-- Settles O2: the decoder reads the command from its encoding, and a well-formed command passes the check of its
width. -/
theorem decodeOfEncodeIsTheCommand : Obligations.DecodeOfEncodeIsTheCommand := by
  intro tickW i hwf
  exact decodeFor_ok.mpr ⟨decode_encode i, hwf⟩

/-- Settles O3: what decodes is the encoding of the command read, and the decoder of a width lets only well-formed
commands pass. -/
theorem encodeOfDecodeIsTheWord : Obligations.EncodeOfDecodeIsTheWord := by
  intro tickW w i h
  obtain ⟨hdec, hwf⟩ := decodeFor_ok.mp h
  exact ⟨decode_eq_ok_iff.mp hdec, hwf⟩

/-- Settles O4: a row selects the legal words with its opcode, and no two rows have one opcode. -/
theorem decoderAgreesWithTheOpcodeTable : Obligations.DecoderAgreesWithTheOpcodeTable := by
  refine ⟨fun w => exists_decode_eq_ok_iff_selects, fun w i hdec r hr hsel => ?_, fun w r hr r' hr' hsel hsel' => ?_⟩
  · obtain ⟨hrow, -⟩ := (selects_iff_legal hr).mp hsel
    obtain ⟨hop, -⟩ := fields_of_decode hdec
    obtain ⟨r', hr', hrow', hname⟩ := exists_row i
    rw [row_eq_of_opcode_eq r hr r' hr' (hrow.symm.trans (hop.trans hrow'.symm)), hname]
  · obtain ⟨hrow, -⟩ := (selects_iff_legal hr).mp hsel
    obtain ⟨hrow', -⟩ := (selects_iff_legal hr').mp hsel'
    exact row_eq_of_opcode_eq r hr r' hr' (hrow.symm.trans hrow')

/-- Settles O5: the clauses are the negation of being legal with an operand that fits, and on each port the turn
presents the word, which is answered. -/
theorem illegalCommandsAreThoseOfR89AndChangeNothing : Obligations.IllegalCommandsAreThoseOfR89AndChangeNothing := by
  refine ⟨fun tickW w => ?_, fun w => ?_, fun s later x e xs hsched hreq hdec => ?_,
    fun s later x e xs hsched hreq hdec => ?_, fun s later x e ts hsched hidle hrest htasks hdec => ?_⟩
  · rw [exists_error_iff, exists_decodeFor_eq_ok_iff, not_and_or, not_legal_iff, Classical.not_imp, Bool.not_eq_true,
      or_assoc, or_assoc, or_assoc]
  · rw [exists_error_iff, exists_decode_eq_ok_iff_selects]
  · calc step s = producerTurn (s.setSched later) := step_of_sched hsched
      _ = present .p x ((s.setSched later).setReqP xs) := producerTurn_of_reqP hreq
      _ = _ := present_of_illegal hdec
  · calc step s = timerTurn (s.setSched later) := step_of_sched hsched
      _ = present .t x ((s.setSched later).setReqT xs) := timerTurn_of_reqT hreq
      _ = _ := present_of_illegal hdec
  · calc step s = consumerTurn (s.setSched later) := step_of_sched hsched
      _ = present .c x ((s.setSched later).setTasks ts) := consumerTurn_of_command hidle hrest htasks
      _ = _ := present_of_illegal hdec

/-- Settles O6: both fields are read back from the word, and the status from its code. -/
theorem responseWordCarriesStatusAndValue : Obligations.ResponseWordCarriesStatusAndValue := by
  refine ⟨fun r => ⟨Response.word_status r, Response.word_value r⟩, fun r r' hword => ?_, rfl, rfl, rfl, rfl⟩
  have hstatus : r.status = r'.status :=
    Status.code_eq_code_iff.mp (by rw [← Response.word_status, hword, Response.word_status])
  have hvalue : r.value = r'.value := by rw [← Response.word_value, hword, Response.word_value]
  cases r
  cases hstatus
  cases hvalue
  rfl

/-- Settles O1: the fourteen words are evaluated. -/
theorem specWordsDecodeAsTheSpecSays : Obligations.SpecWordsDecodeAsTheSpecSays := by
  unfold Obligations.SpecWordsDecodeAsTheSpecSays
  decide

end Sys2Proof
end

section
/-! SUPPORT. The micro-steps of the ring-buffer operations of context C, one lemma for each position of the sequencer
(R115 to R119), and the byte that POP takes. -/

namespace Sys2Proof.Machine

theorem exec_pop_c1 {s : State} (hq : s.seq = .popC1) : exec .pop s = .next (s.setSeq (.popC2 s.head)) := by
  simp only [exec, execPop, hq, popC1, continueAt_eq]

theorem exec_pop_c2_of_eq {s : State} {h : Word} (hq : s.seq = .popC2 h) (hh : h = s.tail) :
    exec .pop s = .next ((s.setSeq .idle).respond .c emptyRsp) := by
  simp [exec, execPop, hq, popC2, isEmpty, hh]

theorem exec_pop_c2_of_ne {s : State} {h : Word} (hq : s.seq = .popC2 h) (hh : h ≠ s.tail) :
    exec .pop s = .next (s.setSeq (.popC3 h s.tail)) := by
  simp [exec, execPop, hq, popC2, isEmpty, hh]

theorem exec_pop_c3 {s : State} {h t : Word} {b : Byte} (hq : s.seq = .popC3 h t) (hin : s.inRange t = true)
    (hb : s.slot t = some b) : exec .pop s = .next (s.setSeq (.popC4 h t b)) := by
  simp only [exec, execPop, hq, popC3, memRead_of_slot (hasSlot_of_inRange hin) hb, continueAt_eq]

theorem exec_pop_c4 {s : State} {h t : Word} {b : Byte} (hq : s.seq = .popC4 h t b) :
    exec .pop s =
      .next (((s.setTail (cursorSucc s.mask t)).setSeq .idle).respond .c (okValue (b.setWidth 32))) := by
  simp only [exec, execPop, hq, popC4, finish_eq]

theorem exec_avail_a1 {s : State} (hq : s.seq = .availA1) :
    exec (.avail .c) s = .next (s.setSeq (.availA2 s.head)) := by
  simp only [exec, execAvail, hq, continueAt_eq]

theorem exec_avail_a2 {s : State} {h : Word} (hq : s.seq = .availA2 h) :
    exec (.avail .c) s = .next ((s.setSeq .idle).respond .c (okValue (available s.mask h s.tail))) := by
  simp only [exec, execAvail, hq, finish_eq]

theorem exec_flush_f1 {s : State} (hq : s.seq = .flushF1) : exec .flush s = .next (s.setSeq (.flushF2 s.head)) := by
  simp only [exec, execFlush, hq, continueAt_eq]

theorem exec_flush_f2 {s : State} {h : Word} (hq : s.seq = .flushF2 h) :
    exec .flush s = .next (((s.setTail h).setSeq .idle).respond .c okDone) := by
  simp only [exec, execFlush, hq, finish_eq, State.setTail, State.setSeq]

theorem exec_rdovr_r1 {s : State} (hq : s.seq = .rdovrR1) :
    exec (.rdovr .c) s = .next ((s.setSeq .idle).respond .c (okValue s.overrunCount)) := by
  simp only [exec, execRdovr, hq, finish_eq]

theorem exec_rdtot_t1 {s : State} (hq : s.seq = .rdtotT1) :
    exec (.rdtot .c) s = .next ((s.setSeq .idle).respond .c (okValue s.totalReceivedCount)) := by
  simp only [exec, execRdtot, hq, finish_eq]

theorem exec_push_of_full (b : Byte) {s : State} (hfull : cursorSucc s.mask s.head = s.tail) :
    exec (.push b) s = .next (((s.setOverrunCount (satIncN s.cfg.cntW s.overrunCount)).setTotalReceivedCount
      (addN s.cfg.cntW s.totalReceivedCount 1)).respond .p fullRsp) := by
  rcases execPush_cases b s with ⟨-, hpush⟩ | ⟨hroom, -⟩ | ⟨hroom, -⟩
  · exact hpush
  · exact absurd hfull hroom
  · exact absurd hfull hroom

/-- The operand of PUSH is the byte, zero-extended (R83). -/
theorem operand_push (b : Byte) : (Instr.push b).operand = b.setWidth 32 := by
  have hb := b.isLt
  apply BitVec.eq_of_toNat_eq
  rw [Instr.operand, BitVec.toNat_append, BitVec.toNat_setWidth, Nat.mod_eq_of_lt (by omega)]
  exact (congrArg (· ||| b.toNat) (Nat.zero_shiftLeft 8)).trans (Nat.zero_or _)

/-! ### The bytes held, and the oldest of them -/

/-- The bytes held are read from `storage` and the two cursors alone. -/
theorem contents_congr {s t : State}
    (h : t.cfg = s.cfg ∧ t.storage = s.storage ∧ t.head = s.head ∧ t.tail = s.tail) :
    t.contents = s.contents := by
  obtain ⟨hcfg, hstorage, hhead, htail⟩ := h
  simp only [State.contents, State.available, State.heldIndex, State.slot, State.mask, hcfg, hstorage, hhead, htail]

/-- POP.c4 of a buffer whose oldest byte is `b` (R115). -/
def State.removeOldest (s : State) (b : Byte) : State :=
  ((s.setTail (cursorSucc s.mask s.tail)).setSeq .idle).respond .c (okValue (b.setWidth 32))

theorem contents_removeOldest {s : State} (hs : s.Inv) (hpos : 0 < s.available.toNat) (b : Byte) :
    (s.removeOldest b).contents = s.contents.tail :=
  (contents_setTail hs hpos).trans List.drop_one

/-- Where bytes are held, the first of them lies in the slot that `tail` names (R28). -/
theorem contents_eq_cons {s : State} {b : Byte} (hs : s.Inv) (hpos : 0 < s.available.toNat)
    (hb : s.slot s.tail = some b) : s.contents = b :: s.contents.tail := by
  obtain ⟨n, hn⟩ := Nat.exists_eq_succ_of_ne_zero (Nat.ne_of_gt hpos)
  have hfirst : s.slot (s.heldIndex 0) = some b := by rw [heldIndex_zero hs.tailInRange, hb]
  simp [State.contents, hn, List.range_succ_eq_map, hfirst]

theorem exists_slot_tail {s : State} (hs : s.Inv) (hpos : 0 < s.available.toNat) : ∃ b, s.slot s.tail = some b := by
  have hsome := isSome_slot_heldIndex hs hpos
  rw [heldIndex_zero hs.tailInRange] at hsome
  exact Option.isSome_iff_exists.mp hsome

theorem slot_tail_of_contents {s : State} {b : Byte} {bs : List Byte} (hs : s.Inv) (h : s.contents = b :: bs) :
    0 < s.available.toNat ∧ s.slot s.tail = some b := by
  have hlen := contents_length hs.heldWritten
  rw [h, List.length_cons] at hlen
  have hpos : 0 < s.available.toNat := by omega
  obtain ⟨b', hb'⟩ := exists_slot_tail hs hpos
  obtain ⟨rfl, -⟩ := List.cons.inj (h.symm.trans (contents_eq_cons hs hpos hb'))
  exact ⟨hpos, hb'⟩

theorem contents_eq_nil_iff {s : State} (hs : s.Inv) : s.contents = [] ↔ s.head = s.tail := by
  obtain ⟨hh, ht, ha⟩ := cursors_of_inv hs
  rw [← List.length_eq_zero_iff, contents_length hs.heldWritten, ← BitVec.toNat_inj]
  split at ha <;> omega

/-- Past its c2 a POP holds `tail` as it is, and a byte is held (R38, R115). -/
theorem held_of_popC3 {s : State} {h t : Word} (hs : s.Inv) (hq : s.seq = .popC3 h t) :
    t = s.tail ∧ 0 < s.available.toNat := by
  have hok := hs.seqOk
  simp only [State.seqOk, hq, Bool.and_eq_true, decide_eq_true_eq] at hok
  obtain ⟨⟨hsnap, htail⟩, hne⟩ := hok
  obtain ⟨hin, hle⟩ := snapshotOk_iff.mp hsnap
  exact ⟨htail, Nat.lt_of_lt_of_le (cursorDiff_pos hin hs.tailInRange (htail ▸ hne)) hle⟩

/-- Past its c3 a POP holds the byte of the slot that `tail` names. -/
theorem held_of_popC4 {s : State} {h t : Word} {b : Byte} (hs : s.Inv) (hq : s.seq = .popC4 h t b) :
    t = s.tail ∧ 0 < s.available.toNat ∧ s.slot s.tail = some b := by
  have hok := hs.seqOk
  simp only [State.seqOk, hq, Bool.and_eq_true, decide_eq_true_eq] at hok
  obtain ⟨⟨⟨hsnap, rfl⟩, hne⟩, hslot⟩ := hok
  obtain ⟨hin, hle⟩ := snapshotOk_iff.mp hsnap
  exact ⟨rfl, Nat.lt_of_lt_of_le (cursorDiff_pos hin hs.tailInRange hne) hle, hslot⟩

/-- R124 (b): c4 removes the oldest byte held and answers it. -/
theorem exec_pop_c4_removes_oldest {s : State} {h t : Word} {b : Byte} (hs : s.Inv) (hq : s.seq = .popC4 h t b) :
    ∃ rest, s.contents = b :: rest ∧ exec .pop s = .next (s.removeOldest b) ∧
      (s.removeOldest b).contents = rest := by
  obtain ⟨rfl, hpos, hslot⟩ := held_of_popC4 hs hq
  exact ⟨_, contents_eq_cons hs hpos hslot, exec_pop_c4 hq, contents_removeOldest hs hpos b⟩

/-- c3 finds a byte (R37 (c)). -/
theorem exec_pop_c3_of_inv {s : State} {h t : Word} (hs : s.Inv) (hq : s.seq = .popC3 h t) :
    ∃ b, exec .pop s = .next (s.setSeq (.popC4 h t b)) := by
  obtain ⟨rfl, hpos⟩ := held_of_popC3 hs hq
  obtain ⟨b, hb⟩ := exists_slot_tail hs hpos
  exact ⟨b, exec_pop_c3 hq hs.tailInRange hb⟩

/-- Everything a turn of a POP in flight does: it goes on, answers EMPTY, or removes the oldest byte. -/
theorem exec_pop_inFlight {s : State} (hs : s.Inv) (hi : s.seq.instr = some .pop) :
    (∃ q, q.instr = some .pop ∧ exec .pop s = .next (s.setSeq q)) ∨
    exec .pop s = .next ((s.setSeq .idle).respond .c emptyRsp) ∨
    ∃ b rest, s.contents = b :: rest ∧ exec .pop s = .next (s.removeOldest b) ∧
      (s.removeOldest b).contents = rest := by
  cases hq : s.seq <;> rw [hq] at hi <;> cases hi
  case popC1 => exact .inl ⟨_, rfl, exec_pop_c1 hq⟩
  case popC2 h =>
    by_cases hh : h = s.tail
    · exact .inr (.inl (exec_pop_c2_of_eq hq hh))
    · exact .inl ⟨_, rfl, exec_pop_c2_of_ne hq hh⟩
  case popC3 h t =>
    obtain ⟨b, hb⟩ := exec_pop_c3_of_inv hs hq
    exact .inl ⟨_, rfl, hb⟩
  case popC4 h t b => exact .inr (.inr ⟨b, exec_pop_c4_removes_oldest hs hq⟩)

end Sys2Proof.Machine
end

section
/-! PROOFS. The micro-steps and single steps of the ring-buffer operations (R114 to R119, R124). -/

namespace Sys2Proof

open Machine

/-- Settles O14: the test of PUSH for full decides, and the slot of `head` exists, so that nothing faults. -/
theorem pushStoresTheByteOrDropsIt : Obligations.PushStoresTheByteOrDropsIt := by
  intro b s hin
  refine ⟨congrArg (CmdWord.make 0b01 0x01) (operand_push b), exec_push_of_full b, fun hroom => ?_⟩
  rcases execPush_cases b s with ⟨hfull, -⟩ | ⟨-, -, hpush⟩ | ⟨-, hnoSlot, -⟩
  · exact absurd hfull hroom
  · exact hpush
  · simp [hasSlot_of_inRange hin] at hnoSlot

/-- Settles O18: one position of the sequencer after the other. -/
theorem popMicroSteps : Obligations.PopMicroSteps :=
  ⟨by decide, fun _ => ⟨exec_of_idle rfl, exec_pop_c1, fun _ => exec_pop_c2_of_eq, fun _ => exec_pop_c2_of_ne,
    fun _ _ _ => exec_pop_c3, fun _ _ _ => exec_pop_c4⟩⟩

/-- Settles O22: in context C the acceptance, a1 and a2; in context P the one step. -/
theorem availAnswersTheNumberOfBytesHeld : Obligations.AvailAnswersTheNumberOfBytesHeld :=
  ⟨by decide, by decide, fun _ => ⟨exec_of_idle rfl, exec_avail_a1, fun _ => exec_avail_a2, rfl⟩⟩

/-- Settles O24: the acceptance, f1 and f2. -/
theorem flushMicroSteps : Obligations.FlushMicroSteps :=
  ⟨by decide, fun _ => ⟨exec_of_idle rfl, exec_flush_f1, fun _ => exec_flush_f2⟩⟩

/-- Settles O26: in context C the acceptance and r1; in context P the one step. -/
theorem rdovrAnswersTheOverrunCount : Obligations.RdovrAnswersTheOverrunCount :=
  ⟨by decide, by decide, fun _ => ⟨exec_of_idle rfl, exec_rdovr_r1, rfl⟩⟩

/-- Settles O27: in context C the acceptance and t1; in context P the one step. -/
theorem rdtotAnswersTheTotalReceivedCount : Obligations.RdtotAnswersTheTotalReceivedCount :=
  ⟨by decide, by decide, fun _ => ⟨exec_of_idle rfl, exec_rdtot_t1, rfl⟩⟩

/-- Settles O21: the latches of a POP at c4 are `tail` and the byte of its slot, which is the oldest held. -/
theorem popIsAtomicAtItsLastMicroStep : Obligations.PopIsAtomicAtItsLastMicroStep := by
  intro s h t b hs hq
  obtain ⟨rest, hcontents, hexec, hrest⟩ := exec_pop_c4_removes_oldest hs hq
  exact ⟨b, rest, hcontents, _, hexec, rfl, hrest⟩

/-- Settles O7: the remainder modulo `CAPACITY`, and its two cases. -/
theorem cursorSuccessorIsModuloCapacity : Obligations.CursorSuccessorIsModuloCapacity := by
  intro s x hx
  have hcap := s.cfg.capacity_le
  have hsucc := cursorSucc_toNat hx
  have hone : (1 : Word).toNat = 1 := rfl
  refine ⟨?_, hx, hcap, add_and_mask_toNat s x 1, fun hlow => ?_, fun htop => ?_⟩
  · rw [BitVec.toNat_add_of_lt (by omega), hone]
  · rw [hsucc, if_pos (by omega)]
  · rw [hsucc, if_neg (by omega)]

/-- Settles O8: the masked difference is the distance from `t` up to `h`, which is also the difference modulo
`2^IDX_W`. -/
theorem cursorDifferenceIsModuloCapacity : Obligations.CursorDifferenceIsModuloCapacity := by
  intro s h t hh ht
  have hcap := s.cfg.capacity_le
  have hdiff := cursorDiff_toNat hh ht
  have hnarrow : (h.setWidth s.cfg.idxW - t.setWidth s.cfg.idxW).toNat =
      (h.toNat + s.cfg.capacity - t.toNat) % s.cfg.capacity := by
    rw [BitVec.toNat_sub, BitVec.toNat_setWidth, BitVec.toNat_setWidth, ← Config.capacity, Nat.mod_eq_of_lt hh,
      Nat.mod_eq_of_lt ht]
    congr 1
    omega
  refine ⟨fun hlt => ?_, fun hle => ?_, fun hlt => ?_, ?_, ?_⟩
  · rw [BitVec.toNat_sub_of_lt hlt]
    omega
  · rw [hdiff, if_pos hle]
  · rw [hdiff, if_neg (by omega)]
  · rw [hdiff]
    split <;> omega
  · rw [hdiff, hnarrow, mod_of_lt_two_mul (by omega)]
    split <;> split <;> omega

/-- Settles O9: below the top both increments add one; at the top one stays and the other wraps. -/
theorem counterIncrementsSaturateAndWrap : Obligations.CounterIncrementsSaturateAndWrap := by
  intro n a hn ha
  have hlt := fits_iff.mp ha
  refine ⟨?_, ?_⟩
  · rw [satIncN_toNat hn]
    split <;> omega
  · rw [addN, and_lowMask_toNat hn, BitVec.toNat_add]
    exact mod_word_mod hn _

end Sys2Proof
end

section
/-! SUPPORT. What the effect of a turn leaves to the software and the inputs, and the frame of POP and FLUSH. -/

namespace Sys2Proof.Machine

/-- The effect of a turn comes after its inputs are taken and the software has run: it changes neither. -/
theorem TurnEffect.keeps_con_env {who : Ctx} {s t : State} (h : TurnEffect who s t) :
    t.con = s.con ∧ t.env = s.env := by
  cases h <;> exact ⟨rfl, rfl⟩

/-- `tail` moves in c4 and in f2 alone (R115, R117). -/
theorem TurnEffect.moves_tail {who : Ctx} {s t : State} (h : TurnEffect who s t) :
    t.tail = s.tail ∨ s.seq.label = some .c4 ∨ s.seq.label = some .f2 := by
  cases h with
  | popped _ hq => exact .inr (.inl (hq ▸ rfl))
  | flushed _ hq => exact .inr (.inr (hq ▸ rfl))
  | passed | answered | dropped | stored | ticked | moved | finished => exact .inl rfl

end Sys2Proof.Machine
end

section
/-! SUPPORT. Runs, and that no step from a state of the invariant stops (R180). -/

namespace Sys2Proof.Machine

/-! ### Runs -/

theorem Ends.imp {o : Host.Outcome State Fault Refusal} {P Q : State → Prop} (h : Ends o P)
    (hPQ : ∀ t, P t → Q t) : Ends o Q := by
  obtain ⟨t, ht, hP⟩ := h
  exact ⟨t, ht, hPQ t hP⟩

theorem run_succ {s t : State} (k : Nat) (h : step s = .next t) : run (k + 1) s = run k t := by
  have hcore : core.step s = .next t := h
  have hrun : core.run (k + 1) s = core.run k t := by simp only [Host.Core.run, hcore]
  exact hrun

theorem run_add {a : Nat} (b : Nat) {s t : State} (h : run a s = .next t) : run (a + b) s = run b t := by
  induction a generalizing s with
  | zero =>
    cases h
    rw [Nat.zero_add]
  | succ a ih =>
    cases hstep : step s with
    | next s' =>
      rw [Nat.succ_add, run_succ _ hstep]
      exact ih ((run_succ _ hstep).symm.trans h)
    | fault r => simp [run, Host.Core.run, core, hstep] at h
    | refused r => simp [run, Host.Core.run, core, hstep] at h

theorem Ends.run_add {a b : Nat} {s : State} {P : State → Prop} (h : Ends (run a s) fun t => Ends (run b t) P) :
    Ends (run (a + b) s) P := by
  obtain ⟨t, ht, hP⟩ := h
  rwa [Machine.run_add b ht]

theorem Ends.run_one {s : State} {P : State → Prop} (h : Ends (step s) P) : Ends (run 1 s) P := by
  obtain ⟨t, ht, hP⟩ := h
  exact ⟨t, run_succ 0 ht, hP⟩

theorem Ends.run_succ {k : Nat} {s : State} {P : State → Prop} (h : Ends (step s) fun t => Ends (run k t) P) :
    Ends (run (k + 1) s) P := by
  obtain ⟨t, ht, hP⟩ := h
  rwa [Machine.run_succ k ht]

/-! ### No step stops -/

/-- Under the invariant every operation has a next state: the slots that PUSH and POP access exist, and the one POP
reads is written. -/
theorem exists_exec_next (i : Instr) {s : State} (hs : s.Inv) : ∃ t, exec i s = .next t := by
  cases i with
  | push b =>
    by_cases hfull : cursorSucc s.mask s.head = s.tail
    · exact ⟨_, exec_push_of_full b hfull⟩
    · exact ⟨_, exec_push_of_room b hs hfull⟩
  | pop =>
    by_cases hidle : s.seq = .idle
    · exact ⟨_, exec_of_idle rfl hidle⟩
    · by_cases hown : s.seq.instr = some .pop
      · rcases exec_pop_inFlight hs hown with ⟨q, -, h⟩ | h | ⟨b, rest, -, h, -⟩ <;> exact ⟨_, h⟩
      · exact ⟨_, exec_of_busy rfl (mt instr_eq_none_iff.mp hidle) hown⟩
  | tick => exact ⟨_, rfl⟩
  | flush =>
    simp only [exec, execFlush]
    split <;> exact ⟨_, rfl⟩
  | delay n =>
    simp only [exec, execDelay, delayD1, delayD2]
    split <;> (repeat' split) <;> exact ⟨_, rfl⟩
  | avail q | rdovr q | rdtot q | now q | elapsed q =>
    cases q with
    | p => exact ⟨_, rfl⟩
    | c =>
      simp only [exec, execAvail, execRdovr, execRdtot, execNow, execElapsed]
      split <;> (repeat' split) <;> exact ⟨_, rfl⟩

theorem exists_present_next (port : Ctx) (x : Request) {s : State} (hs : s.Inv) :
    ∃ t, present port x s = .next t := by
  rcases present_cases port x s with ⟨i, -, hx⟩ | ⟨e, -, hx⟩
  · exact hx ▸ exists_exec_next i hs
  · exact ⟨_, hx⟩

/-- The software's reaction leaves the block as it was, so the command it issues has a next state. -/
theorem exists_react_next {x : Reaction} {s : State} (hs : s.Inv) (hsoft : SoftwareOnly s x.1) :
    ∃ t, react x = .next t := by
  obtain ⟨s', o⟩ := x
  have hs' : s'.Inv := Prepared.keeps_inv (who := .c) ⟨s'.con, s.env, hsoft.1, fun hc => absurd rfl hc, hsoft.2⟩ hs
  cases o with
  | none => exact ⟨_, rfl⟩
  | some i => exact exists_present_next .c i.request hs'

theorem exists_consumerTurn_next {s : State} (hs : s.Inv) : ∃ t, consumerTurn s = .next t := by
  unfold consumerTurn consumerIdleTurn
  split
  · exact exists_exec_next _ hs
  · split
    · split
      · exact ⟨_, rfl⟩
      · exact exists_present_next .c _ (hs.setEnv _)
      · exact exists_react_next (hs.setEnv _) ⟨rfl, .inl rfl⟩
      · exact exists_react_next (hs.setEnv _) ⟨rfl, .inl rfl⟩
    · split
      · exact ⟨_, rfl⟩
      · exact exists_react_next hs (progStep_softwareOnly _ _ s)

/-- R180: no turn from a state of the invariant stops. -/
theorem exists_turn_next (who : Ctx) {s : State} (hs : s.Inv) : ∃ t, turn who s = .next t := by
  cases who with
  | c => exact exists_consumerTurn_next hs
  | p =>
    simp only [turn, producerTurn]
    split
    · exact ⟨_, rfl⟩
    · exact exists_present_next .p _ (hs.setEnv _)
  | t =>
    simp only [turn, timerTurn]
    split
    · exact ⟨_, rfl⟩
    · exact exists_present_next .t _ (hs.setEnv _)

end Sys2Proof.Machine
end

section
/-! SUPPORT. A stretch of the schedule without a turn of context C, which may preempt any operation of the consumer
(R190, R191). -/

namespace Sys2Proof.Machine

/-- A turn of P or T takes the next command of its own agent and no other input. -/
theorem turn_interrupt_next {who : Ctx} {s t : State} (hwho : who ≠ .c) (h : turn who s = .next t) :
    ∃ e : Env, TurnEffect who (s.setEnv e) t ∧ e.sched = s.env.sched ∧ e.tasks = s.env.tasks ∧
      (who = .t → e.reqP = s.env.reqP) := by
  cases who with
  | c => exact absurd rfl hwho
  | p =>
    simp only [turn, producerTurn] at h
    split at h
    · cases h
      exact ⟨s.env, .passed .p s, rfl, rfl, nofun⟩
    next x xs _ => exact ⟨{ s.env with reqP := xs }, present_next nofun h, rfl, rfl, nofun⟩
  | t =>
    simp only [turn, timerTurn] at h
    split at h
    · cases h
      exact ⟨s.env, .passed .t s, rfl, rfl, fun _ => rfl⟩
    next x xs _ => exact ⟨{ s.env with reqT := xs }, present_next nofun h, rfl, rfl, fun _ => rfl⟩

/-- `Preempted s later t`: turns of P and T have led from `s` to `t`, and `later` is scheduled next. The consumer's
fields are as they were, and the bytes held are followed by those stored meanwhile (R30, R38). -/
structure Preempted (s : State) (later : List Ctx) (t : State) : Prop where
  inv : t.Inv
  sched : t.env.sched = later
  cfg : t.cfg = s.cfg
  tail : t.tail = s.tail
  seq : t.seq = s.seq
  con : t.con = s.con
  tasks : t.env.tasks = s.env.tasks
  rspC : t.rsp.c = s.rsp.c
  held : s.contents <+: t.contents

theorem Preempted.refl {s : State} (hs : s.Inv) : Preempted s s.env.sched s :=
  ⟨hs, rfl, rfl, rfl, rfl, rfl, rfl, rfl, List.prefix_refl _⟩

theorem Preempted.trans {s t u : State} {l later : List Ctx} (h : Preempted s l t) (h' : Preempted t later u) :
    Preempted s later u :=
  ⟨h'.inv, h'.sched, h'.cfg.trans h.cfg, h'.tail.trans h.tail, h'.seq.trans h.seq, h'.con.trans h.con,
    h'.tasks.trans h.tasks, h'.rspC.trans h.rspC, h.held.trans h'.held⟩

theorem Preempted.mask {s t : State} {later : List Ctx} (h : Preempted s later t) : t.mask = s.mask := by
  simp only [State.mask, h.cfg]

theorem Preempted.heldIndex {s t : State} {later : List Ctx} (h : Preempted s later t) (j : Nat) :
    t.heldIndex j = s.heldIndex j := by
  simp only [State.heldIndex, h.mask, h.tail]

theorem Preempted.available_le {s t : State} {later : List Ctx} (h : Preempted s later t)
    (hw : s.heldWritten = true) : s.available.toNat ≤ t.available.toNat := by
  rw [← contents_length hw, ← contents_length h.inv.heldWritten]
  exact h.held.length_le

theorem step_preempted {s : State} {who : Ctx} {later : List Ctx} (hs : s.Inv) (hwho : who ≠ .c)
    (hsched : s.env.sched = who :: later) : Ends (step s) (Preempted s later) := by
  have hs' : (s.setSched later).Inv := hs.setEnv _
  obtain ⟨t, hturn⟩ := exists_turn_next who hs'
  obtain ⟨e, heff, hlater, htasks, -⟩ := turn_interrupt_next hwho hturn
  obtain ⟨hcfg, -, hc, -⟩ := heff.frame
  obtain ⟨htail, hseq, hcon, hrsp⟩ := hc hwho
  have henv : t.env = e := heff.keeps_con_env.2
  exact ⟨t, (step_of_sched hsched).trans hturn, heff.keeps_inv (hs'.setEnv e), henv ▸ hlater, hcfg, htail, hseq,
    hcon, henv ▸ htasks, hrsp, heff.contents_grow_behind (hs'.setEnv e) hwho⟩

/-- Turns of P and T run through, whatever they issue. -/
theorem run_preempted {s : State} {l later : List Ctx} (hs : s.Inv) (hl : onlyInterrupts l = true)
    (hsched : s.env.sched = l ++ later) : Ends (run l.length s) (Preempted s later) := by
  induction l generalizing s with
  | nil => exact ⟨s, rfl, (show s.env.sched = later from hsched) ▸ Preempted.refl hs⟩
  | cons who l ih =>
    simp only [onlyInterrupts, List.all_cons, Bool.and_eq_true, bne_iff_ne] at hl
    obtain ⟨hwho, hl⟩ := hl
    obtain ⟨t, hstep, ht⟩ := step_preempted hs hwho hsched
    refine Ends.run_succ ⟨t, hstep, ?_⟩
    exact (ih ht.inv hl ht.sched).imp fun u hu => ht.trans hu

/-- A turn of context C with an operation in flight is that operation's micro-step. -/
theorem step_of_inFlight {s : State} {i : Instr} {later : List Ctx} (hi : s.seq.instr = some i)
    (hsched : s.env.sched = .c :: later) : step s = exec i (s.setSched later) := by
  rw [step_of_sched hsched]
  simp [turn, consumerTurn, hi]

/-- A micro-step after which `q` is next, and the turns of P and T before that. -/
theorem run_moved_preempted {s : State} {i : Instr} {q : Seq} {l later : List Ctx} (hs : s.Inv)
    (hi : s.seq.instr = some i) (hl : onlyInterrupts l = true) (hsched : s.env.sched = .c :: (l ++ later))
    (hexec : exec i (s.setSched (l ++ later)) = .next ((s.setSched (l ++ later)).setSeq q)) :
    Ends (run (l.length + 1) s) (Preempted (s.setSeq q) later) := by
  have heff := exec_inFlight_next (s := s.setSched (l ++ later)) hi hexec
  refine Ends.run_succ ⟨_, (step_of_inFlight hi hsched).trans hexec, ?_⟩
  exact (run_preempted (heff.keeps_inv (hs.setEnv _)) hl rfl).imp fun t ht => { ht with }

end Sys2Proof.Machine
end

section
/-! PROOFS. The operations of context C across preemption (R115 to R117, R124, R219, R220). -/

namespace Sys2Proof

open Machine

/-- Settles O19: both are commands of context C, which moves the sequencer or has an effect of context C. -/
theorem popAndFlushFrame : Obligations.PopAndFlushFrame := by
  intro i s t hkind h
  have hctx : i.ctx = .c := by rcases hkind with rfl | rfl <;> rfl
  rcases exec_c_cases hctx h with ⟨q, rfl⟩ | ⟨-, heff⟩
  · exact ⟨fun _ => rfl, fun _ _ => rfl, rfl, rfl, rfl, rfl, rfl, rfl, rfl, rfl, rfl⟩
  · obtain ⟨hcfg, hp, -, ht⟩ := heff.frame
    obtain ⟨hstorage, hhead, hovr, htot, hrspP⟩ := hp nofun
    obtain ⟨hticks, hrspT⟩ := ht nofun
    obtain ⟨hcon, henv⟩ := heff.keeps_con_env
    refine ⟨fun a => congrArg (Memory.read · a.toNat) hstorage, fun hc4 hf2 => ?_, hcfg, hhead, hovr, htot, hticks,
      hcon, henv, hrspP, hrspT⟩
    exact heff.moves_tail.resolve_right (not_or.mpr ⟨hc4, hf2⟩)

/-- Settles O20: c1 finds `head` past `tail` exactly when a byte is held, turns of P and T leave `tail` and the bytes
held in front, and c4 takes the oldest of what is held then. -/
theorem popAnswersForItsFirstMicroStep : Obligations.PopAnswersForItsFirstMicroStep := by
  refine ⟨fun s b bs l1 l2 l3 later hs hq hheld hl1 hl2 hl3 hsched => ?_,
    fun s l later hs hq hnone hl hsched => ?_⟩
  · have hne : s.head ≠ s.tail := fun heq => by simp [(contents_eq_nil_iff hs).mpr heq] at hheld
    have hturns : l1.length + l2.length + l3.length + 4 =
        (l1.length + 1) + ((l2.length + 1) + ((l3.length + 1) + 1)) := by omega
    rw [hturns]
    refine Ends.run_add
      ((run_moved_preempted hs (congrArg Seq.instr hq) hl1 hsched (exec_pop_c1 hq)).imp fun s1 h1 => ?_)
    have hc2 := exec_pop_c2_of_ne (s := s1.setSched (l2 ++ .c :: (l3 ++ .c :: later))) h1.seq (h1.tail ▸ hne)
    refine Ends.run_add
      ((run_moved_preempted h1.inv (congrArg Seq.instr h1.seq) hl2 h1.sched hc2).imp fun s2 h2 => ?_)
    obtain ⟨b', hc3⟩ := exec_pop_c3_of_inv (s := s2.setSched (l3 ++ .c :: later)) (h2.inv.setEnv _) h2.seq
    refine Ends.run_add
      ((run_moved_preempted h2.inv (congrArg Seq.instr h2.seq) hl3 h2.sched hc3).imp fun s3 h3 => ?_)
    obtain ⟨rest, hcontents, hc4, hrest⟩ :=
      exec_pop_c4_removes_oldest (s := s3.setSched later) (h3.inv.setEnv _) h3.seq
    have hrsp : s3.rsp.c = s.rsp.c := h3.rspC.trans (h2.rspC.trans h1.rspC)
    obtain ⟨more, hmore⟩ : s.contents <+: s3.contents := h1.held.trans (h2.held.trans h3.held)
    obtain ⟨rfl, hbs⟩ : b = b' ∧ bs ++ more = rest :=
      List.cons.inj ((hheld ▸ hmore : (b :: bs) ++ more = s3.contents).trans hcontents)
    exact Ends.run_one ⟨_, (step_of_inFlight (congrArg Seq.instr h3.seq) h3.sched).trans hc4, rfl,
      congrArg (_ :: ·) hrsp, more, hrest.trans hbs.symm⟩
  · have heq : s.head = s.tail := (contents_eq_nil_iff hs).mp hnone
    refine Ends.run_add (b := 1)
      ((run_moved_preempted hs (congrArg Seq.instr hq) hl hsched (exec_pop_c1 hq)).imp fun s1 h1 => ?_)
    have hc2 := exec_pop_c2_of_eq (s := s1.setSched later) h1.seq (heq.trans h1.tail.symm)
    exact Ends.run_one ⟨_, (step_of_inFlight (congrArg Seq.instr h1.seq) h1.sched).trans hc2, rfl,
      congrArg (_ :: ·) h1.rspC, h1.tail⟩

/-- Settles O23: between a1 and a2 neither `tail` nor the snapshot changes, and bytes are only added. -/
theorem availAnswersForItsFirstMicroStep : Obligations.AvailAnswersForItsFirstMicroStep := by
  intro s l later hs hq hl hsched
  refine Ends.run_add (b := 1)
    ((run_moved_preempted hs (congrArg Seq.instr hq) hl hsched (exec_avail_a1 hq)).imp fun u hu => ?_)
  have hle : s.available.toNat ≤ u.available.toNat := hu.available_le hs.heldWritten
  have ha2 := exec_avail_a2 (s := u.setSched later) hu.seq
  have hvalue : available u.mask s.head u.tail = s.available := by
    rw [hu.mask, hu.tail]
    rfl
  exact Ends.run_one ⟨_, (step_of_inFlight (congrArg Seq.instr hu.seq) hu.sched).trans ha2, rfl,
    congrArg₂ (fun v l => okValue v :: l) hvalue hu.rspC, hle⟩

/-- Settles O25: f2 moves `tail` to the snapshot, over the bytes that were held at f1. -/
theorem flushKeepsTheBytesStoredDuringIt : Obligations.FlushKeepsTheBytesStoredDuringIt := by
  intro s l later hs hq hl hsched
  obtain ⟨u, hrun, hu⟩ := run_moved_preempted hs (congrArg Seq.instr hq) hl hsched (exec_flush_f1 hq)
  refine ⟨u, hrun, hu.held, ?_⟩
  have hf2 := exec_flush_f2 (s := u.setSched later) hu.seq
  have hle : s.available.toNat ≤ u.available.toNat := hu.available_le hs.heldWritten
  have hhead : s.head = u.heldIndex s.available.toNat := (heldIndex_available hs).symm.trans (hu.heldIndex _).symm
  refine Ends.run_add (b := 1) ⟨u, hrun, Ends.run_one ⟨_,
    (step_of_inFlight (congrArg Seq.instr hu.seq) hu.sched).trans hf2, rfl, congrArg (_ :: ·) hu.rspC, ?_⟩⟩
  rw [contents_length hs.heldWritten, ← contents_setTail hu.inv hle, ← hhead]
  rfl

end Sys2Proof
end

section
/-! SUPPORT. The turns that take a command from its port (R82, R188), and an operation of context C that nothing
preempts. -/

namespace Sys2Proof.Machine

/-- A port takes the request of a legal command of its context as that command (R82, R92). -/
theorem present_request {i : Instr} {s : State} (hwf : i.wellFormed s.cfg.tickW = true) :
    present i.ctx i.request s = exec i s :=
  present_of_decode (decodeFor_ok.mpr ⟨decode_encode i, hwf⟩)

theorem step_of_push {s : State} {b : Byte} {later : List Ctx} {reqs : List Request}
    (hsched : s.env.sched = .p :: later) (hreq : s.env.reqP = (Instr.push b).request :: reqs) :
    step s = exec (.push b) ((s.setSched later).setReqP reqs) :=
  calc step s = producerTurn (s.setSched later) := step_of_sched hsched
    _ = present .p (Instr.push b).request ((s.setSched later).setReqP reqs) := producerTurn_of_reqP hreq
    _ = _ := present_request (i := .push b) rfl

/-- The idle port C takes in a command that the software, if any is running, issues (R188). -/
theorem present_of_idle {i : Instr} {s : State} (hctx : i.ctx = .c) (hwf : i.wellFormed s.cfg.tickW = true)
    (hidle : s.seq = .idle) : present .c i.request s = .next (s.setSeq (firstPosition i)) := by
  rw [← hctx, present_request hwf, exec_of_idle hctx hidle]

theorem step_of_command {s : State} {i : Instr} {ts : List Task} {later : List Ctx} (hctx : i.ctx = .c)
    (hwf : i.wellFormed s.cfg.tickW = true) (hidle : s.seq = .idle) (hrest : s.con.prog = .rest)
    (htasks : s.env.tasks = .command i.request :: ts) (hsched : s.env.sched = .c :: later) :
    step s = .next (((s.setSched later).setTasks ts).setSeq (firstPosition i)) :=
  calc step s = consumerTurn (s.setSched later) := step_of_sched hsched
    _ = present .c i.request ((s.setSched later).setTasks ts) := consumerTurn_of_command hidle hrest htasks
    _ = _ := present_of_idle hctx hwf hidle

/-- The software issues its next command (R94, R162). -/
theorem react_thenIssue {p : ProgPos} {i : Instr} {s : State} (hctx : i.ctx = .c)
    (hwf : i.wellFormed s.cfg.tickW = true) (hidle : s.seq = .idle) :
    react (thenIssue p i s) = .next ((s.setProg p).setSeq (firstPosition i)) :=
  present_of_idle hctx hwf hidle

theorem step_of_drain {s : State} {ts : List Task} {later : List Ctx} (hidle : s.seq = .idle)
    (hrest : s.con.prog = .rest) (htasks : s.env.tasks = .drain :: ts) (hsched : s.env.sched = .c :: later) :
    step s = .next ((((s.setSched later).setTasks ts).setProg (.drainPop [])).setSeq .popC1) := by
  have hturn : turn .c (s.setSched later) = react (thenIssue (.drainPop []) .pop ((s.setSched later).setTasks ts)) := by
    simp [turn, consumerTurn, consumerIdleTurn, hidle, Seq.instr, hrest, htasks]
  rw [step_of_sched hsched, hturn]
  exact react_thenIssue rfl rfl hidle

/-- The software at `p` takes the newest answer of port C (R94, R162). -/
theorem step_of_answer {s : State} {p : ProgPos} {r : Response} {rs : List Response} {later : List Ctx}
    (hidle : s.seq = .idle) (hprog : s.con.prog = p) (hp : p ≠ .rest) (hrsp : s.rsp.c = r :: rs)
    (hsched : s.env.sched = .c :: later) : step s = react (progStep p r (s.setSched later)) := by
  rw [step_of_sched hsched]
  simp only [turn, consumerTurn, State.setSched_seq, hidle, Seq.instr, consumerIdleTurn, State.setSched_con, hprog,
    State.setSched_rsp, hrsp]

/-! ### POP, FLUSH and AVAIL with nothing between their turns -/

/-- A turn of context C with nothing in between, from the position `q` to the position `q'`. -/
theorem step_moved {s : State} {i : Instr} {q q' : Seq} {later : List Ctx} (hi : q.instr = some i)
    (hexec : exec i ((s.setSched later).setSeq q) = .next ((s.setSched later).setSeq q')) :
    step ((s.setSched (.c :: later)).setSeq q) = .next ((s.setSched later).setSeq q') :=
  (step_of_inFlight hi rfl).trans hexec

theorem run_pop_of_held {s : State} {b : Byte} {bs : List Byte} {later : List Ctx} (hs : s.Inv) (hq : s.seq = .popC1)
    (hheld : s.contents = b :: bs) (hsched : s.env.sched = .c :: .c :: .c :: .c :: later) :
    run 4 s = .next ((s.setSched later).removeOldest b) := by
  obtain ⟨-, hslot⟩ := slot_tail_of_contents hs hheld
  have hne : s.head ≠ s.tail := fun heq => by simp [(contents_eq_nil_iff hs).mpr heq] at hheld
  calc run 4 s = run 3 ((s.setSched (.c :: .c :: .c :: later)).setSeq (.popC2 s.head)) :=
        run_succ 3 ((step_of_inFlight (congrArg Seq.instr hq) hsched).trans (exec_pop_c1 hq))
    _ = run 2 ((s.setSched (.c :: .c :: later)).setSeq (.popC3 s.head s.tail)) :=
        run_succ 2 (step_moved rfl (exec_pop_c2_of_ne rfl hne))
    _ = run 1 ((s.setSched (.c :: later)).setSeq (.popC4 s.head s.tail b)) :=
        run_succ 1 (step_moved rfl (exec_pop_c3 rfl hs.tailInRange hslot))
    _ = .next ((s.setSched later).removeOldest b) := run_succ 0 ((step_of_inFlight rfl rfl).trans (exec_pop_c4 rfl))

theorem run_pop_of_none {s : State} {later : List Ctx} (hs : s.Inv) (hq : s.seq = .popC1) (hnone : s.contents = [])
    (hsched : s.env.sched = .c :: .c :: later) :
    run 2 s = .next (((s.setSched later).setSeq .idle).respond .c emptyRsp) := by
  have heq := (contents_eq_nil_iff hs).mp hnone
  calc run 2 s = run 1 ((s.setSched (.c :: later)).setSeq (.popC2 s.head)) :=
        run_succ 1 ((step_of_inFlight (congrArg Seq.instr hq) hsched).trans (exec_pop_c1 hq))
    _ = .next (((s.setSched later).setSeq .idle).respond .c emptyRsp) :=
        run_succ 0 ((step_of_inFlight rfl rfl).trans (exec_pop_c2_of_eq rfl heq))

/-- The state after a FLUSH with nothing in between: `later` and `ts` are still to come. -/
def State.afterFlush (s : State) (later : List Ctx) (ts : List Task) : State :=
  ((((s.setTasks ts).setSched later).setTail s.head).setSeq .idle).respond .c okDone

namespace State

variable (s : State) (later : List Ctx) (ts : List Task)

@[simp] theorem afterFlush_seq : (s.afterFlush later ts).seq = .idle := rfl
@[simp] theorem afterFlush_con : (s.afterFlush later ts).con = s.con := rfl
@[simp] theorem afterFlush_head : (s.afterFlush later ts).head = s.head := rfl
@[simp] theorem afterFlush_tail : (s.afterFlush later ts).tail = s.head := rfl
@[simp] theorem afterFlush_sched : (s.afterFlush later ts).env.sched = later := rfl
@[simp] theorem afterFlush_tasks : (s.afterFlush later ts).env.tasks = ts := rfl

end State

/-- The state after an AVAIL with nothing in between. -/
def State.afterAvail (s : State) (later : List Ctx) (ts : List Task) : State :=
  (((s.setTasks ts).setSched later).setSeq .idle).respond .c (okValue s.available)

theorem run_flush {s : State} {ts : List Task} {later : List Ctx} (hidle : s.seq = .idle) (hrest : s.con.prog = .rest)
    (htasks : s.env.tasks = .command Instr.flush.request :: ts) (hsched : s.env.sched = .c :: .c :: .c :: later) :
    run 3 s = .next (s.afterFlush later ts) :=
  calc run 3 s = run 2 (((s.setTasks ts).setSched (.c :: .c :: later)).setSeq .flushF1) :=
        run_succ 2 (step_of_command rfl rfl hidle hrest htasks hsched)
    _ = run 1 (((s.setTasks ts).setSched (.c :: later)).setSeq (.flushF2 s.head)) :=
        run_succ 1 (step_moved rfl (exec_flush_f1 rfl))
    _ = _ := run_succ 0 ((step_of_inFlight rfl rfl).trans (exec_flush_f2 rfl))

/-- Where nothing is held, a FLUSH changes the inputs and the responses alone. -/
theorem afterFlush_of_empty {s : State} (later : List Ctx) (ts : List Task) (hidle : s.seq = .idle)
    (hempty : s.tail = s.head) : s.afterFlush later ts =
      { s with env := (s.afterFlush later ts).env, rsp := { s.rsp with c := okDone :: s.rsp.c } } := by
  cases s
  cases hidle
  cases hempty
  rfl

theorem available_of_empty {s : State} (hempty : s.tail = s.head) : s.available = 0 := by
  simp [State.available, available, cursorDiff, hempty]

namespace State

variable (s : State) (later : List Ctx) (ts : List Task)

@[simp] theorem afterAvail_seq : (s.afterAvail later ts).seq = .idle := rfl
@[simp] theorem afterAvail_con : (s.afterAvail later ts).con = s.con := rfl
@[simp] theorem afterAvail_sched : (s.afterAvail later ts).env.sched = later := rfl
@[simp] theorem afterAvail_tasks : (s.afterAvail later ts).env.tasks = ts := rfl
@[simp] theorem afterAvail_rsp_c : (s.afterAvail later ts).rsp.c = ⟨.ok, s.available⟩ :: s.rsp.c := rfl

theorem Inv.setIdle {s : State} (hs : s.Inv) : (s.setSeq .idle).Inv := { hs with seqOk := rfl }

theorem Inv.afterAvail {s : State} (hs : s.Inv) : (s.afterAvail later ts).Inv :=
  ((hs.setEnv _).setEnv _).setIdle.respond .c _

theorem contents_afterAvail : (s.afterAvail later ts).contents = s.contents :=
  contents_congr (by simp [State.afterAvail])

end State

theorem run_avail {s : State} {ts : List Task} {later : List Ctx} (hidle : s.seq = .idle) (hrest : s.con.prog = .rest)
    (htasks : s.env.tasks = .command (Instr.avail .c).request :: ts)
    (hsched : s.env.sched = .c :: .c :: .c :: later) :
    run 3 s = .next (s.afterAvail later ts) :=
  calc run 3 s = run 2 (((s.setTasks ts).setSched (.c :: .c :: later)).setSeq .availA1) :=
        run_succ 2 (step_of_command rfl rfl hidle hrest htasks hsched)
    _ = run 1 (((s.setTasks ts).setSched (.c :: later)).setSeq (.availA2 s.head)) :=
        run_succ 1 (step_moved rfl (exec_avail_a1 rfl))
    _ = _ := run_succ 0 ((step_of_inFlight rfl rfl).trans (exec_avail_a2 rfl))

end Sys2Proof.Machine
end

section
/-! SUPPORT. A DRAIN that nothing preempts (R94): five turns for each byte held, and four to find that none is left. -/

namespace Sys2Proof.Machine

/-- The byte that POP zero-extends is the one the software reads back (R88). -/
theorem popByte_okValue (b : Byte) : popByte (okValue (b.setWidth 32)) = b := by
  have hb := b.isLt
  apply BitVec.eq_of_toNat_eq
  simp only [popByte, okValue, BitVec.toNat_setWidth]
  omega

theorem State.Inv.removeOldest {s : State} (hs : s.Inv) (hpos : 0 < s.available.toNat) (b : Byte) :
    (s.removeOldest b).Inv :=
  (hs.advanceTail (k := 1) hpos).respond .c _

/-- The software has issued a POP and port C has taken it in. -/
theorem State.Inv.issuePop {s : State} (hs : s.Inv) (e : Env) (p : ProgPos) :
    (((s.setEnv e).setProg p).setSeq .popC1).Inv :=
  { hs with seqOk := rfl }

/-- `Drained bytes ts t`: a DRAIN has ended in `t`, has returned `bytes` and left nothing; `ts` is still to do. -/
structure Drained (bytes : List Byte) (ts : List Task) (t : State) : Prop where
  drained : t.con.drained = bytes
  rest : t.con.prog = .rest
  empty : t.contents = []
  idle : t.seq = .idle
  tasks : t.env.tasks = ts

/-- The answer EMPTY ends the DRAIN. -/
theorem react_drainPop_empty (acc : List Byte) (s : State) :
    react (progStep (.drainPop acc) emptyRsp s) = .next (s.setDrained acc) := rfl

/-- The answer with a byte is followed by the next POP. -/
theorem react_drainPop_byte (acc : List Byte) (b : Byte) {s : State} (hidle : s.seq = .idle) :
    react (progStep (.drainPop acc) (okValue (b.setWidth 32)) s) =
      .next ((s.setProg (.drainPop (acc ++ [b]))).setSeq .popC1) := by
  have hissue : progStep (.drainPop acc) (okValue (b.setWidth 32)) s =
      thenIssue (.drainPop (acc ++ [popByte (okValue (b.setWidth 32))])) .pop s := rfl
  rw [hissue, popByte_okValue]
  exact react_thenIssue rfl rfl hidle

theorem run_drainPop_of_none {s : State} {acc : List Byte} {later : List Ctx} (hs : s.Inv) (hq : s.seq = .popC1)
    (hprog : s.con.prog = .drainPop acc) (hnone : s.contents = []) (hsched : s.env.sched = .c :: .c :: .c :: later) :
    Ends (run 3 s) (Drained acc s.env.tasks) := by
  have hanswer : step (((s.setSched (.c :: later)).setSeq .idle).respond .c emptyRsp) = _ :=
    step_of_answer (p := .drainPop acc) rfl hprog nofun rfl rfl
  have hpop := run_pop_of_none hs hq hnone hsched
  refine Ends.run_add (a := 2) (b := 1) ⟨_, hpop, Ends.run_one ?_⟩
  refine ⟨_, hanswer.trans (react_drainPop_empty acc _), ?_⟩
  exact ⟨rfl, rfl, (contents_congr (by simp)).trans hnone, rfl, rfl⟩

theorem run_drainPop_of_held {s : State} {acc bs : List Byte} {b : Byte} {later : List Ctx} (hs : s.Inv)
    (hq : s.seq = .popC1) (hprog : s.con.prog = .drainPop acc) (hheld : s.contents = b :: bs)
    (hsched : s.env.sched = .c :: .c :: .c :: .c :: .c :: later) :
    run 5 s = .next ((((s.removeOldest b).setSched later).setProg (.drainPop (acc ++ [b]))).setSeq .popC1) := by
  have hanswer : step ((s.setSched (.c :: later)).removeOldest b) = _ :=
    step_of_answer (p := .drainPop acc) rfl hprog nofun rfl rfl
  rw [run_add 1 (run_pop_of_held hs hq hheld hsched), run_succ 0 (hanswer.trans (react_drainPop_byte acc b rfl))]
  rfl

/-- The POPs of a DRAIN from the first c1 on, by induction on the bytes held. -/
theorem run_drainPops {bs acc : List Byte} {s : State} {later : List Ctx} (hs : s.Inv) (hq : s.seq = .popC1)
    (hprog : s.con.prog = .drainPop acc) (hheld : s.contents = bs)
    (hsched : s.env.sched = List.replicate (5 * bs.length + 3) .c ++ later) :
    Ends (run (5 * bs.length + 3) s) (Drained (acc ++ bs) s.env.tasks) := by
  induction bs generalizing s acc with
  | nil => exact (List.append_nil acc).symm ▸ run_drainPop_of_none hs hq hprog hheld hsched
  | cons b bs ih =>
    have hturns : 5 * (b :: bs).length + 3 = 5 + (5 * bs.length + 3) := by
      rw [List.length_cons]
      omega
    obtain ⟨hpos, -⟩ := slot_tail_of_contents hs hheld
    have hrest : (s.removeOldest b).contents = bs := by rw [contents_removeOldest hs hpos, hheld, List.tail_cons]
    rw [hturns, List.replicate_add, List.append_assoc] at hsched
    have hfirst := run_drainPop_of_held (later := List.replicate (5 * bs.length + 3) Ctx.c ++ later) hs hq hprog hheld
      hsched
    rw [hturns, run_add _ hfirst, List.append_cons acc b bs]
    exact ih ((hs.removeOldest hpos b).issuePop _ _) rfl rfl ((contents_congr (by simp)).trans hrest) rfl

/-- A DRAIN of the bytes held (R94): its first POP is taken in, and the rest follows. -/
theorem run_drain {s : State} {n : Nat} {ts : List Task} {later : List Ctx} (hs : s.Inv) (hidle : s.seq = .idle)
    (hrest : s.con.prog = .rest) (htasks : s.env.tasks = .drain :: ts) (hlen : s.contents.length = n)
    (hsched : s.env.sched = List.replicate (5 * n + 4) .c ++ later) :
    Ends (run (5 * n + 4) s) (Drained s.contents ts) := by
  subst hlen
  have hsched' : s.env.sched = .c :: (List.replicate (5 * s.contents.length + 3) .c ++ later) := hsched
  rw [run_succ _ (step_of_drain hidle hrest htasks hsched')]
  exact run_drainPops (acc := []) (later := later) ((hs.setEnv _).issuePop _ _) rfl rfl (contents_congr (by simp)) rfl

end Sys2Proof.Machine
end

section
/-! SUPPORT. A burst of PUSH commands (R94, R121): which bytes are stored, and what the counters count. -/

namespace Sys2Proof.Machine

/-- `Pushed s bytes t`: the PUSH commands of `bytes` have led from `s` to `t`. -/
structure Pushed (s : State) (bytes : List Byte) (t : State) : Prop where
  inv : t.Inv
  cfg : t.cfg = s.cfg
  contents : t.contents = s.contents ++ bytes.take (s.cfg.capacity - 1 - s.contents.length)
  overrun : t.overrunCount.toNat = min (s.overrunCount.toNat +
    (bytes.length - (s.cfg.capacity - 1 - s.contents.length))) (2 ^ s.cfg.cntW - 1)
  total : t.totalReceivedCount.toNat = (s.totalReceivedCount.toNat + bytes.length) % 2 ^ s.cfg.cntW

theorem Pushed.nil {s : State} (hs : s.Inv) : Pushed s [] s := by
  have hovr := fits_iff.mp hs.overrunFits
  have htot := fits_iff.mp hs.totalFits
  refine ⟨hs, rfl, by simp, ?_, (Nat.mod_eq_of_lt htot).symm⟩
  simp only [List.length_nil]
  omega

/-- One PUSH: the byte is stored while fewer than `CAPACITY - 1` are held, and counted as an overrun otherwise. -/
theorem exec_push_pushed (b : Byte) {s : State} (hs : s.Inv) : Ends (exec (.push b) s) (Pushed s [b]) := by
  have hlen := contents_length hs.heldWritten
  have hlt := available_lt_capacity hs
  have hovr := fits_iff.mp hs.overrunFits
  have htotal : (addN s.cfg.cntW s.totalReceivedCount 1).toNat =
      (s.totalReceivedCount.toNat + [b].length) % 2 ^ s.cfg.cntW := by
    rw [addN, and_lowMask_toNat s.cfg.cntW_le, BitVec.toNat_add]
    exact mod_word_mod s.cfg.cntW_le _
  by_cases hfull : cursorSucc s.mask s.head = s.tail
  · have hpush := exec_push_of_full b hfull
    have hheld := (cursorSucc_head_eq_tail_iff hs).mp hfull
    have hinc := satIncN_toNat s.cfg.cntW_le s.overrunCount
    have hroom : s.cfg.capacity - 1 - s.contents.length = 0 := by omega
    refine ⟨_, hpush, (exec_push_next hpush).keeps_inv hs, rfl, ?_, ?_, htotal⟩
    · rw [hroom, List.take_zero, List.append_nil]
      rfl
    · rw [hroom]
      change (satIncN s.cfg.cntW s.overrunCount).toNat = _
      simp only [List.length_singleton]
      split at hinc <;> omega
  · have hpush := exec_push_of_room b hs hfull
    have hheld := mt (cursorSucc_head_eq_tail_iff hs).mpr hfull
    have hroom : 1 ≤ s.cfg.capacity - 1 - s.contents.length := by omega
    refine ⟨_, hpush, (exec_push_next hpush).keeps_inv hs, rfl, ?_, ?_, htotal⟩
    · rw [List.take_of_length_le hroom]
      exact contents_storeByte b hs hfull
    · change s.overrunCount.toNat = _
      simp only [List.length_singleton]
      omega

theorem Pushed.cons {s t u : State} {b : Byte} {bs : List Byte} (h : Pushed s [b] t) (h' : Pushed t bs u) :
    Pushed s (b :: bs) u := by
  have hlen : t.contents.length = s.contents.length + min (s.cfg.capacity - 1 - s.contents.length) 1 := by
    rw [h.contents, List.length_append, List.length_take, List.length_singleton]
  have hroom : s.cfg.capacity - 1 - t.contents.length = s.cfg.capacity - 1 - s.contents.length - 1 := by omega
  refine ⟨h'.inv, h'.cfg.trans h.cfg, ?_, ?_, ?_⟩
  · rw [h'.contents, h.cfg, hroom, h.contents, List.append_assoc]
    cases s.cfg.capacity - 1 - s.contents.length <;> simp
  · have hfirst := h.overrun
    have hnext := h'.overrun
    rw [h.cfg, hroom] at hnext
    simp only [List.length_cons, List.length_nil] at hfirst ⊢
    omega
  · rw [h'.total, h.total, h.cfg, Nat.mod_add_mod, Nat.add_assoc, List.length_singleton, List.length_cons,
      Nat.add_comm 1]

theorem onlyInterrupts_replicate (n : Nat) : onlyInterrupts (List.replicate n .p) = true := by
  simp [onlyInterrupts]

/-- A burst of PUSH commands that no other turn interrupts. -/
theorem run_pushes {bytes : List Byte} {s : State} {later : List Ctx} {reqs : List Request} (hs : s.Inv)
    (hreq : s.env.reqP = pushN bytes ++ reqs)
    (hsched : s.env.sched = List.replicate bytes.length .p ++ later) :
    Ends (run bytes.length s) (Pushed s bytes) := by
  induction bytes generalizing s with
  | nil => exact ⟨s, rfl, .nil hs⟩
  | cons b bs ih =>
    have hinv : ((s.setSched (List.replicate bs.length .p ++ later)).setReqP (pushN bs ++ reqs)).Inv := hs.setEnv _
    obtain ⟨t, hexec, ht⟩ := exec_push_pushed b hinv
    obtain ⟨-, henv⟩ := (exec_push_next hexec).keeps_con_env
    refine Ends.run_succ ⟨t, (step_of_push hsched hreq).trans hexec, ?_⟩
    exact (ih ht.inv (henv ▸ rfl) (henv ▸ rfl)).imp fun u hu => Pushed.cons { ht with } hu

end Sys2Proof.Machine
end

section
/-! PROOFS. Overrun accounting, and what a drain returns (R121, R123). -/

namespace Sys2Proof

open Machine

/-- Settles O48: the burst stores its first `CAPACITY - 1` bytes and counts the others, the consumer stays at rest
meanwhile, and the drain returns what is held then. -/
theorem overrunAccounting : Obligations.OverrunAccounting := by
  intro s bytes reqs ts later hs hidle hrest hempty hmany hceiling hreq htasks hsched
  have hnone := (contents_eq_nil_iff hs).mpr hempty
  obtain ⟨u, hrun, hu⟩ := run_pushes hs hreq hsched
  obtain ⟨u', hrun', hpre⟩ := run_preempted hs (onlyInterrupts_replicate _) hsched
  rw [List.length_replicate, hrun] at hrun'
  cases hrun'
  have hheld : u.contents = bytes.take (s.cfg.capacity - 1) := by rw [hu.contents, hnone]; rfl
  have hovr := hu.overrun
  rw [hnone, List.length_nil] at hovr
  have hdrain := run_drain hu.inv (hpre.seq.trans hidle) (hpre.con ▸ hrest) (hpre.tasks.trans htasks)
    (by rw [hheld, List.length_take_of_le (Nat.le_of_lt hmany)]) hpre.sched
  refine ⟨u, hrun, by omega, hu.total, Ends.run_add ⟨u, hrun, hdrain.imp fun t ht => ?_⟩⟩
  exact ⟨ht.drained.trans hheld, ht.rest, ht.empty⟩

/-- Settles O50: AVAIL changes nothing that the drain reads; FLUSH moves `tail` to `head`, where a second FLUSH leaves
it. -/
theorem drainReturnsTheAvailableBytesAndFlushEmpties : Obligations.DrainReturnsTheAvailableBytesAndFlushEmpties := by
  refine ⟨fun s ts later hs hidle hrest htasks hsched => ?_, fun s ts later hidle hrest htasks hsched => ?_⟩
  · have hlen := contents_length hs.heldWritten
    have havail := run_avail hidle hrest htasks hsched
    generalize hu : s.afterAvail _ _ = u at havail
    have hinv : u.Inv := hu ▸ hs.afterAvail _ _
    have hheld : u.contents = s.contents := hu ▸ s.contents_afterAvail _ _
    have hdrain := run_drain (n := s.available.toNat) (ts := ts) (later := later) hinv (by simp [← hu])
      (by simpa [← hu]) (by simp [← hu]) (hheld ▸ hlen) (by simp [← hu])
    have hrsp : u.rsp.c = ⟨.ok, s.available⟩ :: s.rsp.c := by simp [← hu]
    refine ⟨u, havail, hrsp, hdrain.imp fun t ht => ?_⟩
    have hdrained := ht.drained.trans hheld
    exact ⟨hdrained, (congrArg List.length hdrained).trans hlen, ht.empty, ht.rest, ht.idle, ht.tasks⟩
  · have hflush := run_flush (later := .c :: .c :: .c :: .c :: .c :: .c :: later) hidle hrest htasks hsched
    generalize hu : s.afterFlush _ _ = u at hflush
    have hidle' : u.seq = .idle := by simp [← hu]
    have hempty : u.tail = u.head := by simp [← hu]
    have hagain := run_flush (s := u) (ts := .command (Instr.avail .c).request :: ts) (later := .c :: .c :: .c :: later)
      hidle' (by simpa [← hu]) (by simp [← hu]) (by simp [← hu])
    have hsame := afterFlush_of_empty (.c :: .c :: .c :: later) (.command (Instr.avail .c).request :: ts) hidle' hempty
    generalize hv : u.afterFlush _ _ = v at hagain hsame
    have hempty' : v.tail = v.head := by simp [← hv]
    have havail := run_avail (s := v) (ts := ts) (later := later) (by simp [← hv]) (by simpa [← hv, ← hu])
      (by simp [← hv]) (by simp [← hv])
    refine ⟨u, hflush, hidle', available_of_empty hempty, by simp [← hu], v, hagain, hsame, _, havail, ?_⟩
    simp [available_of_empty hempty']

end Sys2Proof
end

section
/-! SUPPORT. A consumer that issues POP only and a producer that issues PUSH only, under any schedule (R122). -/

namespace Sys2Proof.Machine

/-! ### The bytes answered -/

/-- A byte is returned by a POP answered OK, or accepted by a PUSH answered OK; any other answer carries none. -/
def ifOk (r : Response) (b : Byte) : List Byte := if r.status = .ok then [b] else []

theorem poppedBytes_cons (r : Response) (l : List Response) :
    poppedBytes (r :: l) = poppedBytes l ++ ifOk r (popByte r) := by
  by_cases hr : r.status = .ok <;> simp [poppedBytes, ifOk, hr]

/-- One more element on the shorter list pairs with the next one of the longer list. -/
theorem zip_concat {α β : Type} {as rest : List α} {a : α} {bs : List β} (b : β)
    (h : as.drop bs.length = a :: rest) : as.zip (bs ++ [b]) = as.zip bs ++ [(a, b)] := by
  induction bs generalizing as with
  | nil =>
    obtain rfl : as = a :: rest := h
    simp
  | cons b' bs ih =>
    cases as with
    | nil => simp at h
    | cons a' as => simpa using ih h

/-- One more answer answers the PUSH of the next byte. -/
theorem acceptedBytes_cons {bytes rest : List Byte} {b : Byte} {l : List Response} (r : Response)
    (h : bytes.drop l.length = b :: rest) : acceptedBytes bytes (r :: l) = acceptedBytes bytes l ++ ifOk r b := by
  have hzip : bytes.zip (l.reverse ++ [r]) = bytes.zip l.reverse ++ [(b, r)] := zip_concat r (by simpa using h)
  by_cases hr : r.status = .ok <;> simp [acceptedBytes, hzip, ifOk, hr]

/-- PUSH is answered, and the byte is appended exactly when the answer is OK, which it is while there is room. -/
theorem exec_push_answers (b : Byte) {s : State} (hs : s.Inv) :
    ∃ t r, exec (.push b) s = .next t ∧ t.rsp.p = r :: s.rsp.p ∧ t.contents = s.contents ++ ifOk r b ∧
      (s.contents.length < s.cfg.capacity - 1 → r.status = .ok) := by
  by_cases hfull : cursorSucc s.mask s.head = s.tail
  · obtain ⟨t, hexec, hcontents, hrsp⟩ := push_preserves_of_full b hfull
    refine ⟨t, _, hexec, hrsp, by simpa [ifOk] using hcontents, fun hlt => ?_⟩
    rw [contents_length hs.heldWritten, (cursorSucc_head_eq_tail_iff hs).mp hfull] at hlt
    exact absurd hlt (Nat.lt_irrefl _)
  · obtain ⟨t, hexec, hcontents, hrsp⟩ := push_appends_of_room b hs hfull
    exact ⟨t, _, hexec, hrsp, by simpa [ifOk] using hcontents, fun _ => rfl⟩

/-! ### The invariant of the round trip -/

/-- `Fifo cfg bytes s`: in `s` the producer has pushed part of `bytes` and has the rest to push, the consumer pops only,
and the bytes popped and the bytes held are those accepted, in order. -/
structure Fifo (cfg : Config) (bytes : List Byte) (s : State) : Prop where
  inv : s.Inv
  config : s.cfg = cfg
  rest : s.con.prog = .rest
  tasks : ∀ x ∈ s.env.tasks, x = .command Instr.pop.request
  seq : s.seq = .idle ∨ s.seq.instr = some .pop
  answered : s.rsp.p.length ≤ bytes.length
  reqP : s.env.reqP = pushN (bytes.drop s.rsp.p.length)
  order : poppedBytes s.rsp.c ++ s.contents = acceptedBytes bytes s.rsp.p
  allOk : bytes.length ≤ cfg.capacity - 1 → acceptedBytes bytes s.rsp.p = bytes.take s.rsp.p.length

variable {cfg : Config} {bytes : List Byte} {s : State}

theorem Fifo.setSched (h : Fifo cfg bytes s) (l : List Ctx) : Fifo cfg bytes (s.setSched l) :=
  { h with inv := h.inv.setEnv _ }

/-- A turn of T leaves all of it alone, whatever T issues. -/
theorem Fifo.timerTurn (h : Fifo cfg bytes s) : Ends (turn .t s) (Fifo cfg bytes) := by
  obtain ⟨t, hturn⟩ := exists_turn_next .t h.inv
  obtain ⟨e, heff, -, htasks, hreqP⟩ := turn_interrupt_next (who := .t) nofun hturn
  obtain ⟨hcfg, hp, hc, -⟩ := heff.frame
  obtain ⟨hstorage, hhead, -, -, hrspP⟩ := hp nofun
  obtain ⟨htail, hseq, hcon, hrspC⟩ := hc nofun
  have henv : t.env = e := heff.keeps_con_env.2
  have hcontents : t.contents = s.contents := contents_congr ⟨hcfg, hstorage, hhead, htail⟩
  simp only [State.setEnv_con, State.setEnv_seq, State.setEnv_rsp, State.setEnv_cfg] at hcon hseq hrspP hrspC hcfg
  refine ⟨t, hturn, heff.keeps_inv (h.inv.setEnv e), hcfg.trans h.config, ?_, ?_, ?_, ?_, ?_, ?_, ?_⟩
  · rw [hcon, h.rest]
  · rw [henv, htasks]
    exact h.tasks
  · rw [hseq]
    exact h.seq
  · rw [hrspP]
    exact h.answered
  · rw [henv, hreqP rfl, hrspP, h.reqP]
  · rw [hrspP, hrspC, hcontents, h.order]
  · rw [hrspP]
    exact h.allOk

/-- A turn of P: the next byte is accepted behind those held, or dropped. -/
theorem Fifo.producerTurn (h : Fifo cfg bytes s) : Ends (turn .p s) (Fifo cfg bytes) := by
  cases hdrop : bytes.drop s.rsp.p.length with
  | nil =>
    have hreq : s.env.reqP = [] := by rw [h.reqP, hdrop]; rfl
    exact ⟨s, by simp [turn, Machine.producerTurn, hreq], h⟩
  | cons b rest =>
    have hreq : s.env.reqP = (Instr.push b).request :: pushN rest := by rw [h.reqP, hdrop]; rfl
    have hinv : (s.setReqP (pushN rest)).Inv := h.inv.setEnv _
    obtain ⟨t, r, hexec, hrspP, hcontents, hroom⟩ := exec_push_answers b hinv
    have hturn : turn .p s = .next t :=
      (producerTurn_of_reqP hreq).trans ((present_request (i := .push b) rfl).trans hexec)
    have heff := exec_push_next hexec
    obtain ⟨hcfg, -, hc, -⟩ := heff.frame
    obtain ⟨-, hseq, hcon, hrspC⟩ := hc nofun
    have henv := heff.keeps_con_env.2
    have hlt : s.rsp.p.length < bytes.length :=
      Nat.lt_of_not_le fun hle => by simp [List.drop_eq_nil_of_le hle] at hdrop
    have hnext : bytes.drop (s.rsp.p.length + 1) = rest := by rw [← List.tail_drop, hdrop, List.tail_cons]
    have hheld : (s.setReqP (pushN rest)).contents = s.contents := contents_congr (by simp)
    rw [hheld] at hcontents hroom
    simp only [State.setReqP_con, State.setReqP_seq, State.setReqP_rsp, State.setReqP_cfg, State.setReqP_env]
      at hcon hseq hrspP hrspC hcfg hroom henv
    have hlen := congrArg List.length h.order
    rw [List.length_append] at hlen
    refine ⟨t, hturn, heff.keeps_inv hinv, hcfg.trans h.config, ?_, ?_, ?_, ?_, ?_, ?_, fun hcap => ?_⟩
    · rw [hcon, h.rest]
    · rw [henv]
      exact h.tasks
    · rw [hseq]
      exact h.seq
    · rw [hrspP]
      exact hlt
    · rw [henv, hrspP, List.length_cons, hnext]
    · rw [hrspP, hrspC, hcontents, acceptedBytes_cons r hdrop, ← List.append_assoc, h.order]
    · have hall := h.allOk hcap
      rw [hall, List.length_take] at hlen
      have hok : r.status = .ok := hroom (by rw [h.config]; omega)
      rw [hrspP, acceptedBytes_cons r hdrop, hall, ifOk, if_pos hok, List.length_cons, List.take_add, hdrop]
      rfl

/-- A turn of C: a POP is taken in, goes on, or is answered, with the oldest byte held or with EMPTY. -/
theorem Fifo.consumerTurn (h : Fifo cfg bytes s) : Ends (turn .c s) (Fifo cfg bytes) := by
  rcases h.seq with hidle | hpop
  · cases htasks : s.env.tasks with
    | nil => exact ⟨s, by simp [turn, Machine.consumerTurn, consumerIdleTurn, hidle, Seq.instr, h.rest, htasks], h⟩
    | cons x ts =>
      obtain rfl := h.tasks x (by simp [htasks])
      have hturn : turn .c s = .next ((s.setTasks ts).setSeq .popC1) :=
        (consumerTurn_of_command hidle h.rest htasks).trans (present_of_idle rfl rfl hidle)
      have hheld : ((s.setTasks ts).setSeq .popC1).contents = s.contents := contents_congr (by simp)
      exact ⟨_, hturn, { h with
        inv := { h.inv with seqOk := rfl }
        tasks := fun y hy => h.tasks y (htasks ▸ List.mem_cons_of_mem _ hy)
        seq := .inr rfl
        order := hheld.symm ▸ h.order }⟩
  · have hturn : turn .c s = exec .pop s := by simp [turn, Machine.consumerTurn, hpop]
    rw [hturn]
    rcases exec_pop_inFlight h.inv hpop with ⟨q, hq, hexec⟩ | hexec | ⟨b, rest, hheld, hexec, hrest⟩
    · have hheld : (s.setSeq q).contents = s.contents := contents_congr (by simp)
      refine ⟨_, hexec, { h with inv := ?_, seq := .inr hq, order := hheld.symm ▸ h.order }⟩
      exact (exec_inFlight_next hpop hexec).keeps_inv h.inv
    · have hheld : ((s.setSeq .idle).respond .c emptyRsp).contents = s.contents := contents_congr (by simp)
      refine ⟨_, hexec, { h with inv := ?_, seq := .inl rfl, order := ?_ }⟩
      · exact (exec_inFlight_next hpop hexec).keeps_inv h.inv
      · have hpopped : poppedBytes (emptyRsp :: s.rsp.c) = poppedBytes s.rsp.c ++ [] := poppedBytes_cons _ _
        rw [hheld]
        exact (congrArg (· ++ s.contents) (hpopped.trans (List.append_nil _))).trans h.order
    · refine ⟨_, hexec, { h with inv := ?_, seq := .inl rfl, order := ?_ }⟩
      · exact (exec_inFlight_next hpop hexec).keeps_inv h.inv
      · have hpopped : poppedBytes (s.removeOldest b).rsp.c = poppedBytes s.rsp.c ++ [b] :=
          (poppedBytes_cons _ _).trans (congrArg (poppedBytes s.rsp.c ++ [·]) (popByte_okValue b))
        rw [hpopped, hrest, List.append_assoc]
        exact (congrArg (poppedBytes s.rsp.c ++ ·) hheld).symm.trans h.order

theorem Fifo.step (h : Fifo cfg bytes s) : Ends (step s) (Fifo cfg bytes) := by
  cases hsched : s.env.sched with
  | nil => exact ⟨s, by simp [Machine.step, scheduledTurn, hsched], h⟩
  | cons who later =>
    rw [step_of_sched hsched]
    cases who with
    | c => exact (h.setSched later).consumerTurn
    | p => exact (h.setSched later).producerTurn
    | t => exact (h.setSched later).timerTurn

theorem construct_fifo (bytes : List Byte) (pops : Nat) (sched : List Ctx) (reqT : List Request)
    (hcfg : cfg.legal = true) : Fifo cfg bytes ((State.construct cfg).setEnv
      ⟨sched, List.replicate pops (.command Instr.pop.request), pushN bytes, reqT⟩) := by
  have hinv := (construct_inv hcfg).setEnv
    ⟨sched, List.replicate pops (.command Instr.pop.request), pushN bytes, reqT⟩
  have hnone := (contents_eq_nil_iff hinv).mpr rfl
  have haccepted : acceptedBytes bytes [] = [] := by simp [acceptedBytes]
  exact {
    inv := hinv
    config := rfl
    rest := rfl
    tasks := fun _ hx => List.eq_of_mem_replicate hx
    seq := .inl rfl
    answered := Nat.zero_le _
    reqP := rfl
    order := hnone.trans haccepted.symm
    allOk := fun _ => haccepted }

/-- What every step keeps, without stopping, every run keeps. -/
theorem run_of_step {P : State → Prop} (hstep : ∀ s, P s → Ends (step s) P) (n : Nat) (hs : P s) :
    Ends (run n s) P := by
  induction n generalizing s with
  | zero => exact ⟨s, rfl, hs⟩
  | succ n ih => exact Ends.run_succ ((hstep s hs).imp fun t ht => ih ht)

end Sys2Proof.Machine
end

section
/-! PROOFS. The round trip (R122). -/

namespace Sys2Proof

open Machine

/-- Settles O49: the invariant `Fifo` holds right after construction, every turn keeps it, and no turn stops. -/
theorem poppedBytesArePushedBytesInOrder : Obligations.PoppedBytesArePushedBytesInOrder := by
  intro cfg bytes pops n sched reqT hcfg
  have hinit := construct_fifo bytes pops sched reqT hcfg
  exact (run_of_step (fun _ h => h.step) n hinit).imp fun t ht => ⟨ht.order, ht.answered, ht.allOk⟩

end Sys2Proof
end

section
/-! SUPPORT. The arithmetic of the tick counter modulo `2^TICK_W` (R140): sums, differences, and what `n` increments
do to a stamp. -/

namespace Sys2Proof.Machine

theorem addN_toNat {n : Nat} (hn : n ≤ 32) (a b : Word) : (addN n a b).toNat = (a.toNat + b.toNat) % 2 ^ n := by
  rw [addN, and_lowMask_toNat hn, BitVec.toNat_add]
  exact mod_word_mod hn _

/-- The tick increment of R140 (a). -/
theorem addN_one_toNat {n : Nat} (hn : n ≤ 32) (a : Word) : (addN n a 1).toNat = (a.toNat + 1) % 2 ^ n :=
  addN_toNat hn a 1

theorem subN_toNat {n : Nat} (hn : n ≤ 32) (a b : Word) :
    (subN n a b).toNat = (2 ^ 32 - b.toNat + a.toNat) % 2 ^ n := by
  rw [subN, and_lowMask_toNat hn, BitVec.toNat_sub]
  exact mod_word_mod hn _

theorem subN_toNat_lt {n : Nat} (hn : n ≤ 32) (a b : Word) : (subN n a b).toNat < 2 ^ n := by
  rw [subN_toNat hn]
  exact Nat.mod_lt _ (Nat.two_pow_pos n)

/-- The difference added to the subtrahend gives the minuend back, modulo `2^n`. -/
theorem subN_toNat_add_mod {n : Nat} (hn : n ≤ 32) (a b : Word) :
    ((subN n a b).toNat + b.toNat) % 2 ^ n = a.toNat % 2 ^ n := by
  have hb := b.isLt
  have hsum : 2 ^ 32 - b.toNat + a.toNat + b.toNat = a.toNat + 2 ^ 32 := by omega
  rw [subN_toNat hn, Nat.mod_add_mod, hsum, ← mod_word_mod hn, Nat.add_mod_right, mod_word_mod hn]

/-- The elapsed difference of R140 (b): the distance from `start` up to `now`, around the top of the counter if need
be. -/
theorem subN_toNat_of_fits {n : Nat} (hn : n ≤ 32) {now start : Word} (hnow : fits n now = true)
    (hstart : fits n start = true) : (subN n now start).toNat =
      if start.toNat ≤ now.toNat then now.toNat - start.toNat else now.toNat + 2 ^ n - start.toNat := by
  rw [fits_iff] at hnow hstart
  have hlt := subN_toNat_lt hn now start
  have hback := subN_toNat_add_mod hn now start
  rw [Nat.mod_eq_of_lt hnow, mod_of_lt_two_mul (by omega)] at hback
  split at hback <;> split <;> omega

/-- Ticks counted before the difference is taken may be counted after it. -/
theorem subN_addN {n : Nat} (hn : n ≤ 32) (a b c : Word) : subN n (addN n a c) b = addN n (subN n a b) c := by
  apply BitVec.eq_of_toNat_eq
  rw [subN_toNat hn, addN_toNat hn, addN_toNat hn, subN_toNat hn, Nat.add_mod_mod, Nat.mod_add_mod, Nat.add_assoc]

theorem subN_self {n : Nat} (a : Word) : subN n a a = 0 := by
  rw [subN, BitVec.sub_self]
  exact BitVec.zero_and

/-- One more tick moves the difference on by one, or back to 0 at its top. -/
theorem subN_addN_one_toNat {n : Nat} (hn : n ≤ 32) (now start : Word) :
    (subN n (addN n now 1) start).toNat = ((subN n now start).toNat + 1) % 2 ^ n := by
  rw [subN_addN hn, addN_one_toNat hn]

theorem subN_addN_one_toNat_of_lt {n : Nat} (hn : n ≤ 32) {now start : Word}
    (hlt : (subN n now start).toNat + 1 < 2 ^ n) :
    (subN n (addN n now 1) start).toNat = (subN n now start).toNat + 1 := by
  rw [subN_addN_one_toNat hn, Nat.mod_eq_of_lt hlt]

/-- The value of a counter of `w` bits `n` ticks after it was `x` (R140 (a)). -/
def ticksAfter (w n : Nat) (x : Word) : Word := (fun y => addN w y 1)^[n] x

theorem ticksAfter_succ (w n : Nat) (x : Word) : ticksAfter w (n + 1) x = addN w (ticksAfter w n x) 1 :=
  Function.iterate_succ_apply' _ n x

theorem ticksAfter_toNat {w : Nat} (hw : w ≤ 32) (n : Nat) {x : Word} (hx : fits w x = true) :
    (ticksAfter w n x).toNat = (x.toNat + n) % 2 ^ w := by
  induction n with
  | zero => exact (Nat.mod_eq_of_lt (fits_iff.mp hx)).symm
  | succ n ih => rw [ticksAfter_succ, addN_one_toNat hw, ih, Nat.mod_add_mod, Nat.add_assoc]

/-- The difference to a stamp counts the ticks since then modulo `2^w` (R140 (c)). -/
theorem subN_ticksAfter_toNat {w : Nat} (hw : w ≤ 32) (n : Nat) (x : Word) :
    (subN w (ticksAfter w n x) x).toNat = n % 2 ^ w := by
  induction n with
  | zero =>
    have hzero : subN w (ticksAfter w 0 x) x = 0 := subN_self x
    rw [hzero, Nat.zero_mod]
    rfl
  | succ n ih => rw [ticksAfter_succ, subN_addN_one_toNat hw, ih, Nat.mod_add_mod]

theorem subN_ticksAfter {w : Nat} (hw : w ≤ 32) (n : Nat) (x : Word) :
    subN w (ticksAfter w n x) x = BitVec.ofNat 32 (n % 2 ^ w) := by
  have hlt : n % 2 ^ w < 2 ^ 32 :=
    Nat.lt_of_lt_of_le (Nat.mod_lt n (Nat.two_pow_pos w)) (Nat.pow_le_pow_right (by decide) hw)
  apply BitVec.eq_of_toNat_eq
  rw [subN_ticksAfter_toNat hw, BitVec.toNat_ofNat, Nat.mod_eq_of_lt hlt]

theorem geU_iff {a b : Word} : geU a b = true ↔ b.toNat ≤ a.toNat := decide_eq_true_iff

end Sys2Proof.Machine
end

section
/-! SUPPORT. The micro-steps of NOW, DELAY and ELAPSED in context C (R142 to R144), and what a turn can do to
`ticks`. -/

namespace Sys2Proof.Machine

theorem exec_now_n1 {s : State} (hq : s.seq = .nowN1) :
    exec (.now .c) s = .next ((s.setSeq .idle).respond .c (okValue s.ticks)) := by
  simp only [exec, execNow, hq, finish_eq]

theorem exec_delay_d1 {s : State} {imm : Word} (hq : s.seq = .delayD1 imm) :
    exec (.delay imm) s = .next (s.setSeq (.delayD2 imm s.ticks none)) := by
  simp only [exec, execDelay, hq, if_true, delayD1, continueAt_eq]

theorem exec_delay_d2_of_le {s : State} {arg start : Word} {now : Option Word} (hq : s.seq = .delayD2 arg start now)
    (hle : arg.toNat ≤ (subN s.cfg.tickW s.ticks start).toNat) :
    exec (.delay arg) s = .next ((s.setSeq .idle).respond .c okDone) := by
  simp only [exec, execDelay, hq, if_true, delayD2, geU_iff.mpr hle, finish_eq]

theorem exec_delay_d2_of_lt {s : State} {arg start : Word} {now : Option Word} (hq : s.seq = .delayD2 arg start now)
    (hlt : (subN s.cfg.tickW s.ticks start).toNat < arg.toNat) :
    exec (.delay arg) s = .next (s.setSeq (.delayD2 arg start (some s.ticks))) := by
  simp only [exec, execDelay, hq, if_true, delayD2, geU_iff, Nat.not_le.mpr hlt, if_false, continueAt_eq]

theorem exec_elapsed_e1 {s : State} {imm : Word} (hq : s.seq = .elapsedE1 imm) :
    exec (.elapsed .c imm) s =
      .next ((s.setSeq .idle).respond .c (okValue (subN s.cfg.tickW s.ticks imm))) := by
  simp only [exec, execElapsed, hq, if_true, finish_eq, State.setSeq]

/-- `ticks` moves by the increment of TICK alone (R141). -/
theorem TurnEffect.moves_ticks {who : Ctx} {s t : State} (h : TurnEffect who s t) :
    t.ticks = s.ticks ∨ (who = .t ∧ t.ticks = addN s.cfg.tickW s.ticks 1) := by
  cases h with
  | ticked => exact .inr ⟨rfl, rfl⟩
  | passed | answered | dropped | stored | moved | finished | popped | flushed => exact .inl rfl

/-- A turn moves the difference of `ticks` to a stamp on by at most one, and a turn of C or P leaves it (R140, R146). -/
theorem step_subN_ticks_le {s t : State} {who : Ctx} {later : List Ctx} (hsched : s.env.sched = who :: later)
    (h : step s = .next t) (start : Word) :
    (subN t.cfg.tickW t.ticks start).toNat ≤
      (subN s.cfg.tickW s.ticks start).toNat + if who == .t then 1 else 0 := by
  obtain ⟨s', ⟨k, e, rfl, -⟩, heff⟩ := step_next hsched h
  have hcfg : t.cfg = s.cfg := heff.frame.1
  rw [hcfg]
  rcases heff.moves_ticks with hticks | ⟨rfl, hticks⟩
  · rw [hticks]
    exact Nat.le_add_right _ _
  · have hinc : t.ticks = addN s.cfg.tickW s.ticks 1 := hticks
    rw [hinc, subN_addN_one_toNat s.cfg.tickW_le]
    exact Nat.mod_le _ _

end Sys2Proof.Machine
end

section
/-! SUPPORT. A DELAY that too few ticks reach (R146, R224). -/

namespace Sys2Proof.Machine

/-- `Polling rsp arg start s`: a DELAY polls in `s`, port C has answered `rsp` so far, and with a tick at every turn of
T still scheduled the difference would stay below the operand. -/
structure Polling (rsp : List Response) (arg start : Word) (s : State) : Prop where
  inv : s.Inv
  rspC : s.rsp.c = rsp
  seq : ∃ now, s.seq = .delayD2 arg start now
  short : (subN s.cfg.tickW s.ticks start).toNat + s.env.sched.count .t < arg.toNat

variable {rsp : List Response} {arg start : Word} {s : State}

theorem step_of_no_sched (h : s.env.sched = []) : step s = .next s := by
  simp only [step, scheduledTurn, h]

/-- A turn of C polls and finds the duration not passed. -/
theorem Polling.consumerStep {later : List Ctx} (h : Polling rsp arg start s) (hsched : s.env.sched = .c :: later) :
    Ends (step s) (Polling rsp arg start) := by
  obtain ⟨hinv, hrsp, ⟨now, hq⟩, hshort⟩ := h
  rw [hsched, List.count_cons_of_ne (by decide)] at hshort
  have hpoll := exec_delay_d2_of_lt (s := s.setSched later) hq (Nat.lt_of_le_of_lt (Nat.le_add_right _ _) hshort)
  have hstep := (step_of_inFlight (congrArg Seq.instr hq) hsched).trans hpoll
  exact ⟨_, hstep, stepKeepsTheInvariant _ _ hinv hstep, hrsp, ⟨_, rfl⟩, hshort⟩

/-- A turn of P or T leaves the consumer alone, and one of T uses up one of the turns counted. -/
theorem Polling.interruptStep {who : Ctx} {later : List Ctx} (h : Polling rsp arg start s) (hwho : who ≠ .c)
    (hsched : s.env.sched = who :: later) : Ends (step s) (Polling rsp arg start) := by
  obtain ⟨hinv, hrsp, ⟨now, hq⟩, hshort⟩ := h
  obtain ⟨t, hstep, ht⟩ := step_preempted hinv hwho hsched
  have hle := step_subN_ticks_le hsched hstep start
  rw [hsched, List.count_cons] at hshort
  exact ⟨t, hstep, ht.inv, ht.rspC.trans hrsp, ⟨now, ht.seq.trans hq⟩, by rw [ht.sched]; omega⟩

theorem Polling.step (h : Polling rsp arg start s) : Ends (step s) (Polling rsp arg start) := by
  cases hsched : s.env.sched with
  | nil => exact ⟨s, step_of_no_sched hsched, h⟩
  | cons who later =>
    by_cases hwho : who = .c
    · exact h.consumerStep (hwho ▸ hsched)
    · exact h.interruptStep hwho hsched

end Sys2Proof.Machine
end

section
/-! SUPPORT. Turns of T that issue TICK, and the query or the poll that follows them (R141, R143, R144). -/

namespace Sys2Proof.Machine

/-- A turn of P takes the request of a legal command of its context as that command (R188). -/
theorem step_of_request_p {s : State} {i : Instr} {later : List Ctx} {reqs : List Request} (hctx : i.ctx = .p)
    (hwf : i.wellFormed s.cfg.tickW = true) (hsched : s.env.sched = .p :: later)
    (hreq : s.env.reqP = i.request :: reqs) : step s = exec i ((s.setSched later).setReqP reqs) :=
  calc step s = producerTurn (s.setSched later) := step_of_sched hsched
    _ = present .p i.request ((s.setSched later).setReqP reqs) := producerTurn_of_reqP hreq
    _ = _ := hctx ▸ present_request hwf

/-- The state after `n` TICK commands with nothing in between: `later` and `reqs` are still to come. -/
def State.afterTicks (s : State) (n : Nat) (later : List Ctx) (reqs : List Request) : State :=
  (((s.setSched later).setReqT reqs).setTicks (ticksAfter s.cfg.tickW n s.ticks)).setRsp
    { s.rsp with t := List.replicate n okDone ++ s.rsp.t }

theorem step_of_tick {s : State} {later : List Ctx} {reqs : List Request} (hsched : s.env.sched = .t :: later)
    (hreq : s.env.reqT = Instr.tick.request :: reqs) : step s = .next (s.afterTicks 1 later reqs) :=
  calc step s = timerTurn (s.setSched later) := step_of_sched hsched
    _ = present .t Instr.tick.request ((s.setSched later).setReqT reqs) := timerTurn_of_reqT hreq
    _ = _ := present_request (i := .tick) rfl

theorem afterTicks_afterTicks (s : State) (m n : Nat) (l later : List Ctx) (rs reqs : List Request) :
    (s.afterTicks m l rs).afterTicks n later reqs = s.afterTicks (n + m) later reqs := by
  have hticks : ticksAfter s.cfg.tickW n (ticksAfter s.cfg.tickW m s.ticks) = ticksAfter s.cfg.tickW (n + m) s.ticks :=
    (Function.iterate_add_apply _ n m s.ticks).symm
  have hrsp : List.replicate n okDone ++ (List.replicate m okDone ++ s.rsp.t) =
      List.replicate (n + m) okDone ++ s.rsp.t := by
    rw [← List.append_assoc, List.replicate_append_replicate]
  simp only [State.afterTicks, State.setSched, State.setReqT, State.setTicks, State.setRsp, State.setEnv, hticks, hrsp]

theorem run_ticks {n : Nat} {s : State} {later : List Ctx} {reqs : List Request}
    (hsched : s.env.sched = List.replicate n .t ++ later)
    (hreq : s.env.reqT = List.replicate n Instr.tick.request ++ reqs) :
    run n s = .next (s.afterTicks n later reqs) := by
  induction n generalizing s with
  | zero =>
    cases hsched
    cases hreq
    rfl
  | succ n ih => rw [run_succ n (step_of_tick hsched hreq), ih rfl rfl, afterTicks_afterTicks]

/-- `n` TICK commands, and then an ELAPSED of context P with the stamp that `ticks` was before them. -/
theorem run_ticks_elapsed_p {n : Nat} {s : State} {later : List Ctx} {reqs reqs' : List Request} (hs : s.Inv)
    (hsched : s.env.sched = List.replicate n .t ++ .p :: later)
    (hreqT : s.env.reqT = List.replicate n Instr.tick.request ++ reqs)
    (hreqP : s.env.reqP = (Instr.elapsed .p s.ticks).request :: reqs') :
    run (n + 1) s = .next (((s.afterTicks n later reqs).setReqP reqs').respond .p
      (okValue (BitVec.ofNat 32 (n % 2 ^ s.cfg.tickW)))) := by
  rw [run_add 1 (run_ticks hsched hreqT), ← subN_ticksAfter s.cfg.tickW_le n s.ticks]
  exact run_succ 0 (step_of_request_p (i := .elapsed .p s.ticks) rfl hs.ticksFit rfl hreqP)

/-- The same query in context C takes two turns, the acceptance and e1 (R144, R188). -/
theorem run_ticks_elapsed_c {n : Nat} {s : State} {ts : List Task} {later : List Ctx} {reqs : List Request}
    (hs : s.Inv) (hidle : s.seq = .idle) (hrest : s.con.prog = .rest)
    (hsched : s.env.sched = List.replicate n .t ++ .c :: .c :: later)
    (hreq : s.env.reqT = List.replicate n Instr.tick.request ++ reqs)
    (htasks : s.env.tasks = .command (Instr.elapsed .c s.ticks).request :: ts) :
    Ends (run (n + 2) s) fun t => t.rsp.c = okValue (BitVec.ofNat 32 (n % 2 ^ s.cfg.tickW)) :: s.rsp.c := by
  have haccept : step (s.afterTicks n (.c :: .c :: later) reqs) =
      .next (((s.afterTicks n (.c :: later) reqs).setTasks ts).setSeq (.elapsedE1 s.ticks)) :=
    step_of_command (i := .elapsed .c s.ticks) rfl hs.ticksFit hidle hrest htasks rfl
  have hanswer := exec_elapsed_e1 (s := ((s.afterTicks n later reqs).setTasks ts).setSeq (.elapsedE1 s.ticks)) rfl
  refine Ends.run_add ⟨_, run_ticks hsched hreq, Ends.run_succ ⟨_, haccept, Ends.run_one ⟨_,
    (step_of_inFlight rfl rfl).trans hanswer, ?_⟩⟩⟩
  exact congrArg (okValue · :: s.rsp.c) (subN_ticksAfter s.cfg.tickW_le n s.ticks)

/-! ### A DELAY polled after every TICK -/

/-- The operand of a DELAY that polls is a value of the counter (R33, R83). -/
theorem delay_arg_lt {s : State} {arg start : Word} {now : Option Word} (hs : s.Inv)
    (hq : s.seq = .delayD2 arg start now) : arg.toNat < 2 ^ s.cfg.tickW := by
  have hok := hs.seqOk
  simp only [State.seqOk, hq, Bool.and_eq_true] at hok
  obtain ⟨⟨harg, -⟩, -⟩ := hok
  exact fits_iff.mp harg

/-- A TICK, and then the poll of the DELAY in flight. -/
theorem run_tick_poll {s t : State} {arg start : Word} {now : Option Word} {later : List Ctx} {reqs : List Request}
    (hq : s.seq = .delayD2 arg start now) (hsched : s.env.sched = .t :: .c :: later)
    (hreq : s.env.reqT = Instr.tick.request :: reqs)
    (hpoll : exec (.delay arg) (s.afterTicks 1 later reqs) = .next t) : run 2 s = .next t := by
  have hinFlight : (s.afterTicks 1 (.c :: later) reqs).seq.instr = some (.delay arg) := congrArg Seq.instr hq
  calc run 2 s = run 1 (s.afterTicks 1 (.c :: later) reqs) := run_succ 1 (step_of_tick hsched hreq)
    _ = .next t := run_succ 0 ((step_of_inFlight hinFlight rfl).trans hpoll)

/-- The tick is the last one needed: the poll responds (R143). -/
theorem run_tick_poll_of_eq {s : State} {arg start : Word} {now : Option Word} {later : List Ctx} {reqs : List Request}
    (harg : arg.toNat < 2 ^ s.cfg.tickW) (hq : s.seq = .delayD2 arg start now)
    (hneed : (subN s.cfg.tickW s.ticks start).toNat + 1 = arg.toNat) (hsched : s.env.sched = .t :: .c :: later)
    (hreq : s.env.reqT = Instr.tick.request :: reqs) :
    run 2 s = .next (((s.afterTicks 1 later reqs).setSeq .idle).respond .c okDone) := by
  have hdiff : (subN s.cfg.tickW (ticksAfter s.cfg.tickW 1 s.ticks) start).toNat = arg.toNat :=
    (subN_addN_one_toNat_of_lt s.cfg.tickW_le (hneed ▸ harg)).trans hneed
  exact run_tick_poll hq hsched hreq (exec_delay_d2_of_le hq hdiff.ge)

/-- More ticks are needed: the poll is next again (R143). -/
theorem run_tick_poll_of_lt {s : State} {arg start : Word} {now : Option Word} {later : List Ctx} {reqs : List Request}
    (harg : arg.toNat < 2 ^ s.cfg.tickW) (hq : s.seq = .delayD2 arg start now)
    (hneed : (subN s.cfg.tickW s.ticks start).toNat + 1 < arg.toNat) (hsched : s.env.sched = .t :: .c :: later)
    (hreq : s.env.reqT = Instr.tick.request :: reqs) :
    run 2 s = .next ((s.afterTicks 1 later reqs).setSeq
      (.delayD2 arg start (some (s.afterTicks 1 later reqs).ticks))) := by
  have hdiff : (subN s.cfg.tickW (ticksAfter s.cfg.tickW 1 s.ticks) start).toNat < arg.toNat :=
    (subN_addN_one_toNat_of_lt s.cfg.tickW_le (hneed.trans harg)).trans_lt hneed
  exact run_tick_poll hq hsched hreq (exec_delay_d2_of_lt hq hdiff)

/-- The DELAY responds at the poll after the `k + 1`-st tick, the last of those it needs. -/
theorem run_ticks_polled {k : Nat} {s : State} {arg start : Word} {now : Option Word} {later : List Ctx}
    {reqs : List Request} (harg : arg.toNat < 2 ^ s.cfg.tickW) (hq : s.seq = .delayD2 arg start now)
    (hneed : (subN s.cfg.tickW s.ticks start).toNat + (k + 1) = arg.toNat)
    (hreq : s.env.reqT = List.replicate (k + 1) Instr.tick.request ++ reqs)
    (hsched : s.env.sched = (List.replicate (k + 1) [Ctx.t, Ctx.c]).flatten ++ later) :
    Ends (run (2 * (k + 1)) s) fun t => t.seq = .idle ∧ t.rsp.c = okDone :: s.rsp.c := by
  induction k generalizing s now with
  | zero => exact ⟨_, run_tick_poll_of_eq harg hq hneed hsched hreq, rfl, rfl⟩
  | succ k ih =>
    have hturns : 2 * (k + 1 + 1) = 2 + 2 * (k + 1) := by omega
    rw [hturns]
    have hdiff := subN_addN_one_toNat_of_lt s.cfg.tickW_le (now := s.ticks) (start := start) (by omega)
    refine Ends.run_add ⟨_, run_tick_poll_of_lt harg hq (by omega) hsched hreq, ih harg rfl ?_ rfl rfl⟩
    exact (congrArg (· + (k + 1)) hdiff).trans (by omega)

end Sys2Proof.Machine
end

section
/-! PROOFS. The tick clock: its arithmetic (R140), its micro-steps (R141 to R144), and what DELAY and ELAPSED make of
the ticks (R145, R146). -/

namespace Sys2Proof

open Machine

/-- Settles O33: every step keeps `Polling`, since a turn of T costs the difference at most the one turn it uses up. -/
theorem delayNeverRespondsWithoutItsTicks : Obligations.DelayNeverRespondsWithoutItsTicks := by
  intro s arg start now hs hq hshort n
  have hinit : Polling s.rsp.c arg start s := ⟨hs, rfl, ⟨now, hq⟩, hshort⟩
  exact (run_of_step (fun _ h => h.step) n hinit).imp fun t ht => ⟨ht.rspC, ht.seq⟩

/-- Settles O10: the increment and the difference are remainders modulo `2^w`. -/
theorem tickArithmeticIsModuloTickWidth : Obligations.TickArithmeticIsModuloTickWidth := by
  intro w _ hw
  refine ⟨fun ticks hfits => ⟨fun hlow => ?_, fun htop => ?_⟩,
    fun now start hnow hstart => ⟨fun hle => ?_, fun hlt => ?_, ?_⟩,
    fun start n _ => subN_ticksAfter_toNat hw n start, fun a b => geU_iff⟩
  · rw [addN_one_toNat hw, Nat.mod_eq_of_lt (by omega)]
  · have hpos := Nat.two_pow_pos w
    have hsum : ticks.toNat + 1 = 2 ^ w := by omega
    rw [addN_one_toNat hw, hsum, Nat.mod_self]
  · rw [subN_toNat_of_fits hw hnow hstart, if_pos hle]
  · rw [subN_toNat_of_fits hw hnow hstart, if_neg (Nat.not_le.mpr hlt)]
  · exact Nat.le_sub_one_of_lt (subN_toNat_lt hw now start)

/-- Settles O34: every tick moves the difference on by one, and the poll that finds it at the operand responds; the
difference to a stamp just taken is 0. -/
theorem delayRespondsAtThePollAfterItsLastTick : Obligations.DelayRespondsAtThePollAfterItsLastTick := by
  refine ⟨fun s arg start now k reqs later hs hq hk hneed hreq hsched => ?_, fun s later hq hsched => ?_⟩
  · obtain ⟨k, rfl⟩ := Nat.exists_eq_add_one.mpr hk
    exact run_ticks_polled (delay_arg_lt hs hq) hq hneed hreq hsched
  · have hd1 := exec_delay_d1 (s := s.setSched (.c :: later)) hq
    have hd2 := exec_delay_d2_of_le (s := (s.setSched later).setSeq (.delayD2 0 s.ticks none)) rfl (Nat.zero_le _)
    exact Ends.run_succ ⟨_, (step_of_inFlight (congrArg Seq.instr hq) hsched).trans hd1,
      Ends.run_one ⟨_, (step_of_inFlight rfl rfl).trans hd2, rfl, rfl⟩⟩

/-- Settles O35: the ticks run through, and the query in either context answers the difference to the stamp. -/
theorem elapsedCountsTheTicksSinceTheStamp : Obligations.ElapsedCountsTheTicksSinceTheStamp := by
  refine ⟨fun s n reqs reqs' later hs hsched hreqT hreqP => ?_,
    fun s n reqs ts later hs hidle hrest hsched hreqT htasks => ?_,
    fun s reqs reqs' later hs hw hticks hsched hreqT hreqP => ?_⟩
  · exact ⟨_, run_ticks_elapsed_p hs hsched hreqT hreqP, rfl⟩
  · exact run_ticks_elapsed_c hs hidle hrest hsched hreqT htasks
  · have hpow : 2 ^ 3 ≤ 2 ^ s.cfg.tickW := Nat.pow_le_pow_right (by decide) hw
    have hfive : 5 % 2 ^ s.cfg.tickW = 5 := Nat.mod_eq_of_lt (by omega)
    have htwo : ticksAfter s.cfg.tickW 5 s.ticks = 2 := by
      have hsum : s.ticks.toNat + 5 = 2 + 2 ^ s.cfg.tickW := by omega
      apply BitVec.eq_of_toNat_eq
      rw [ticksAfter_toNat s.cfg.tickW_le 5 hs.ticksFit, hsum, Nat.add_mod_right, Nat.mod_eq_of_lt (by omega)]
      rfl
    refine ⟨_, run_ticks_elapsed_p hs hsched hreqT hreqP, ?_, htwo⟩
    exact congrArg (fun v => okValue (BitVec.ofNat 32 v) :: s.rsp.p) hfive

/-- Settles O28: the one step of TICK. -/
theorem tickIncrementsTicks : Obligations.TickIncrementsTicks :=
  ⟨by decide, fun _ => rfl⟩

/-- Settles O29: in context C the acceptance and n1; in context P the one step. -/
theorem nowAnswersTicks : Obligations.NowAnswersTicks :=
  ⟨by decide, by decide, fun _ => ⟨exec_of_idle rfl, exec_now_n1, rfl⟩⟩

/-- Settles O30: the acceptance, d1, and the two outcomes of d2. -/
theorem delayMicroSteps : Obligations.DelayMicroSteps :=
  fun _ _ => ⟨rfl, exec_of_idle rfl, exec_delay_d1, fun _ _ => exec_delay_d2_of_le, fun _ _ => exec_delay_d2_of_lt⟩

/-- Settles O31: in context C the acceptance and e1; in context P the one step. -/
theorem elapsedAnswersTheDifference : Obligations.ElapsedAnswersTheDifference :=
  fun _ _ => ⟨rfl, rfl, exec_of_idle rfl, exec_elapsed_e1, rfl⟩

end Sys2Proof
end

section
/-! SUPPORT. What the reaction of the reference consumer program is (R161 to R165): an equation for each branch of
`dispatchByte`, and the context of the command it issues. -/

namespace Sys2Proof.Machine

/-! ### The answer to the POP of q1 -/

theorem progStep_pollPop_of_ok {r : Response} (h : r.status = .ok) (s : State) :
    progStep .pollPop r s = dispatchByte (popByte r) s := if_pos h

theorem progStep_pollPop_of_not_ok {r : Response} (h : r.status ≠ .ok) (s : State) :
    progStep .pollPop r s = askElapsed (s.setSession .idle) := if_neg h

theorem dispatchByte_of_status {b : Byte} {s : State} (h : b = s.cfg.cmdStatus) :
    dispatchByte b s = askReport .onCommand (s.setSession .awaitingCommandEcho) := if_pos h

theorem dispatchByte_of_flush {b : Byte} {s : State} (hstatus : b ≠ s.cfg.cmdStatus) (h : b = s.cfg.cmdFlush) :
    dispatchByte b s = thenIssue .pollFlush .flush (s.setSession .awaitingCommandEcho) :=
  (if_neg hstatus).trans (if_pos h)

theorem dispatchByte_of_other {b : Byte} {s : State} (hstatus : b ≠ s.cfg.cmdStatus) (hflush : b ≠ s.cfg.cmdFlush) :
    dispatchByte b s = askElapsed (applyEchoPolicy b (s.setSession .idle)) :=
  (if_neg hstatus).trans (if_neg hflush)

theorem applyEchoPolicy_of_ignore {s : State} (h : s.cfg.echoPolicy = .ignore) (b : Byte) :
    applyEchoPolicy b s = s := by
  simp only [applyEchoPolicy, h]

theorem applyEchoPolicy_of_echo {s : State} (h : s.cfg.echoPolicy = .echo) (b : Byte) :
    applyEchoPolicy b s = s.emit (.echoed b) := by
  simp only [applyEchoPolicy, h]

/-! ### The answer to the ELAPSED of q2 -/

theorem progStep_pollElapsed_of_le {r : Response} {s : State} (h : s.cfg.reportInterval.toNat ≤ r.value.toNat) :
    progStep .pollElapsed r s = askReport (.periodic r.value) s := if_pos (geU_iff.mpr h)

theorem progStep_pollElapsed_of_lt {r : Response} {s : State} (h : r.value.toNat < s.cfg.reportInterval.toNat) :
    progStep .pollElapsed r s = (s.setProg .rest, none) := if_neg (mt geU_iff.mp (Nat.not_le.mpr h))

/-! ### The command issued -/

theorem thenIssue_issues_c {p : ProgPos} {i : Instr} {s : State} (hctx : i.ctx = .c) :
    ∀ j ∈ (thenIssue p i s).2, j.ctx = .c :=
  fun _ hj => Option.some.inj hj ▸ hctx

theorem dispatchByte_issues_c (b : Byte) (s : State) : ∀ i ∈ (dispatchByte b s).2, i.ctx = .c := by
  unfold dispatchByte
  split
  · exact thenIssue_issues_c rfl
  · split <;> exact thenIssue_issues_c rfl

/-- ConsoleSession and DRAIN issue commands of context C alone (R161). -/
theorem progStep_issues_c (p : ProgPos) (r : Response) (s : State) : ∀ i ∈ (progStep p r s).2, i.ctx = .c := by
  cases p with
  | rest => exact nofun
  | pollFlush | pollAvail | pollOvr => exact thenIssue_issues_c rfl
  | drainPop bytes =>
    simp only [progStep]
    split
    · exact thenIssue_issues_c rfl
    · exact nofun
  | pollPop =>
    simp only [progStep]
    split
    · exact dispatchByte_issues_c _ s
    · exact thenIssue_issues_c rfl
  | pollElapsed =>
    simp only [progStep]
    split
    · exact thenIssue_issues_c rfl
    · exact nofun
  | pollTot why a o =>
    cases why with
    | onCommand => exact thenIssue_issues_c rfl
    | periodic e => exact nofun

end Sys2Proof.Machine
end

section
/-! SUPPORT. A POLL that nothing preempts (R162): two turns for each of its queries of one micro-step, three for AVAIL
and for the POP of an empty buffer, one to take the last answer. -/

namespace Sys2Proof.Machine

/-- The difference added to the stamp gives the counter back (R140). -/
theorem addN_subN {n : Nat} (hn : n ≤ 32) {now : Word} (hnow : fits n now = true) (start : Word) :
    addN n start (subN n now start) = now := by
  apply BitVec.eq_of_toNat_eq
  rw [addN_toNat hn, Nat.add_comm, subN_toNat_add_mod hn, Nat.mod_eq_of_lt (fits_iff.mp hnow)]

/-- `s` with port C idle and the software at `p`, `later` scheduled next and `rs` answered on port C, newest first. All
else that a POLL without a byte changes before its report is `sessionState`, which `k` gives. -/
def State.waiting (s : State) (later : List Ctx) (k : Console) (p : ProgPos) (rs : List Response) : State :=
  { s with
    seq := .idle, con := { k with prog := p }, env := { s.env with sched := later }, rsp := { s.rsp with c := rs } }

/-- POLL at rest issues the POP of q1 (R162). -/
theorem step_of_poll {s : State} {ts : List Task} {later : List Ctx} (hidle : s.seq = .idle)
    (hrest : s.con.prog = .rest) (htasks : s.env.tasks = .poll :: ts) (hsched : s.env.sched = .c :: later) :
    step s = .next (((s.setTasks ts).waiting later s.con .pollPop s.rsp.c).setSeq .popC1) := by
  have hturn : turn .c (s.setSched later) = react (thenIssue .pollPop .pop ((s.setSched later).setTasks ts)) := by
    simp [turn, consumerTurn, consumerIdleTurn, hidle, Seq.instr, hrest, htasks]
  have hissue : react (thenIssue .pollPop .pop ((s.setSched later).setTasks ts)) = _ := react_thenIssue rfl rfl hidle
  rw [step_of_sched hsched, hturn, hissue]
  rfl

section

variable {s : State} {k k' : Console} {p p' : ProgPos} {r r' : Response} {rs : List Response} {i : Instr}
  {later : List Ctx}

/-- The software at `p` takes its answer. -/
theorem step_waiting (hp : p ≠ .rest) :
    step (s.waiting (.c :: later) k p (r :: rs)) = react (progStep p r (s.waiting later k p (r :: rs))) :=
  step_of_answer rfl rfl hp rfl rfl

/-- The software at `p` answers by issuing `i`, whose answer it awaits at `p'`. -/
theorem step_waiting_of_issue (hp : p ≠ .rest) (hctx : i.ctx = .c) (hwf : i.wellFormed s.cfg.tickW = true)
    (hissue : progStep p r (s.waiting later k p (r :: rs)) = thenIssue p' i (s.waiting later k' p (r :: rs))) :
    step (s.waiting (.c :: later) k p (r :: rs)) =
      .next ((s.waiting later k' p' (r :: rs)).setSeq (firstPosition i)) :=
  (step_waiting hp).trans ((congrArg react hissue).trans (react_thenIssue hctx hwf rfl))

/-- A micro-step of the operation in flight. -/
theorem step_waiting_inFlight {q : Seq} (hq : q.instr = some i) :
    step ((s.waiting (.c :: later) k p rs).setSeq q) = exec i ((s.waiting later k p rs).setSeq q) :=
  step_of_inFlight hq rfl

/-- The command issued answers in its first micro-step. -/
theorem run_waiting_of_query (hp : p ≠ .rest) (hctx : i.ctx = .c) (hwf : i.wellFormed s.cfg.tickW = true)
    (hissue : progStep p r (s.waiting (.c :: later) k p (r :: rs)) =
      thenIssue p' i (s.waiting (.c :: later) k' p (r :: rs)))
    (hfirst : (firstPosition i).instr = some i)
    (hexec : exec i ((s.waiting later k' p' (r :: rs)).setSeq (firstPosition i)) =
      .next ((((s.waiting later k' p' (r :: rs)).setSeq (firstPosition i)).setSeq .idle).respond .c r')) :
    run 2 (s.waiting (.c :: .c :: later) k p (r :: rs)) = .next (s.waiting later k' p' (r' :: r :: rs)) := by
  rw [run_succ 1 (step_waiting_of_issue hp hctx hwf hissue)]
  exact run_succ 0 ((step_waiting_inFlight hfirst).trans hexec)

/-- q3 once the interval has passed: AVAIL, with its two micro-steps. -/
theorem run_waiting_avail {e : Word} (hdue : s.cfg.reportInterval.toNat ≤ e.toNat) :
    run 3 (s.waiting (.c :: .c :: .c :: later) k .pollElapsed (okValue e :: rs)) =
      .next (s.waiting later k (.pollAvail (.periodic e)) (okValue s.available :: okValue e :: rs)) := by
  have hissue : step (s.waiting (.c :: .c :: .c :: later) k .pollElapsed (okValue e :: rs)) =
      .next ((s.waiting (.c :: .c :: later) k (.pollAvail (.periodic e)) (okValue e :: rs)).setSeq .availA1) :=
    step_waiting_of_issue (i := .avail .c) nofun rfl rfl (progStep_pollElapsed_of_le hdue)
  have ha1 : step ((s.waiting (.c :: .c :: later) k (.pollAvail (.periodic e)) (okValue e :: rs)).setSeq .availA1) =
      .next ((s.waiting (.c :: later) k (.pollAvail (.periodic e)) (okValue e :: rs)).setSeq (.availA2 s.head)) :=
    (step_waiting_inFlight rfl).trans (exec_avail_a1 rfl)
  have ha2 : step ((s.waiting (.c :: later) k (.pollAvail (.periodic e)) (okValue e :: rs)).setSeq (.availA2 s.head)) =
      .next (s.waiting later k (.pollAvail (.periodic e)) (okValue s.available :: okValue e :: rs)) :=
    (step_waiting_inFlight rfl).trans (exec_avail_a2 rfl)
  exact (run_succ 2 hissue).trans ((run_succ 1 ha1).trans (run_succ 0 ha2))

/-- q4: RDOVR. -/
theorem run_waiting_rdovr {why : ReportKind} {a : Word} :
    run 2 (s.waiting (.c :: .c :: later) k (.pollAvail why) (okValue a :: rs)) =
      .next (s.waiting later k (.pollOvr why a) (okValue s.overrunCount :: okValue a :: rs)) :=
  run_waiting_of_query (i := .rdovr .c) nofun rfl rfl rfl rfl (exec_rdovr_r1 rfl)

/-- q5: RDTOT. -/
theorem run_waiting_rdtot {why : ReportKind} {a o : Word} :
    run 2 (s.waiting (.c :: .c :: later) k (.pollOvr why a) (okValue o :: rs)) =
      .next (s.waiting later k (.pollTot why a o) (okValue s.totalReceivedCount :: okValue o :: rs)) :=
  run_waiting_of_query (i := .rdtot .c) nofun rfl rfl rfl rfl (exec_rdtot_t1 rfl)

/-- q3 to q5 of a report whose interval has passed, from the answer `e` of ELAPSED on. -/
theorem run_readings {e : Word} (hdue : s.cfg.reportInterval.toNat ≤ e.toNat) :
    run 7 (s.waiting (.c :: .c :: .c :: .c :: .c :: .c :: .c :: later) k .pollElapsed (okValue e :: rs)) =
      .next (s.waiting later k (.pollTot (.periodic e) s.available s.overrunCount)
        (okValue s.totalReceivedCount :: okValue s.overrunCount :: okValue s.available :: okValue e :: rs)) :=
  calc run 7 _ = run 4 _ := run_add 4 (run_waiting_avail hdue)
    _ = run 2 _ := run_add 2 run_waiting_rdovr
    _ = _ := run_waiting_rdtot

/-- q6 and q7: the report is emitted and ends POLL. -/
theorem step_waiting_of_report {e a o n : Word} :
    step (s.waiting (.c :: later) k (.pollTot (.periodic e) a o) (okValue n :: rs)) =
      .next (s.waiting later { k with
        lastReportTick := addN s.cfg.tickW k.lastReportTick e, sink := .telemetry a o n :: k.sink } .rest
        (okValue n :: rs)) :=
  step_waiting nofun

/-- The answer of ELAPSED ends POLL where the interval has not passed. -/
theorem step_waiting_of_lt {e : Word} (hshort : e.toNat < s.cfg.reportInterval.toNat) :
    step (s.waiting (.c :: later) k .pollElapsed (okValue e :: rs)) =
      .next (s.waiting later k .rest (okValue e :: rs)) := by
  have hend : progStep .pollElapsed (okValue e) (s.waiting later k .pollElapsed (okValue e :: rs)) =
      (s.waiting later k .rest (okValue e :: rs), none) := progStep_pollElapsed_of_lt hshort
  exact (step_waiting (p := .pollElapsed) nofun).trans (congrArg react hend)

end

/-- q1 of a POLL of an empty buffer. -/
theorem run_pollPop_of_empty {s : State} {ts : List Task} {later : List Ctx} (hidle : s.seq = .idle)
    (hrest : s.con.prog = .rest) (hempty : s.head = s.tail) (htasks : s.env.tasks = .poll :: ts)
    (hsched : s.env.sched = .c :: .c :: .c :: later) :
    run 3 s = .next ((s.setTasks ts).waiting later s.con .pollPop (emptyRsp :: s.rsp.c)) := by
  have hc1 : step (((s.setTasks ts).waiting (.c :: .c :: later) s.con .pollPop s.rsp.c).setSeq .popC1) =
      .next (((s.setTasks ts).waiting (.c :: later) s.con .pollPop s.rsp.c).setSeq (.popC2 s.head)) :=
    (step_waiting_inFlight rfl).trans (exec_pop_c1 rfl)
  have hc2 : step (((s.setTasks ts).waiting (.c :: later) s.con .pollPop s.rsp.c).setSeq (.popC2 s.head)) =
      .next ((s.setTasks ts).waiting later s.con .pollPop (emptyRsp :: s.rsp.c)) :=
    (step_waiting_inFlight rfl).trans (exec_pop_c2_of_eq rfl hempty)
  exact (run_succ 2 (step_of_poll hidle hrest htasks hsched)).trans ((run_succ 1 hc1).trans (run_succ 0 hc2))

/-- q2 where the POP has answered no byte. -/
theorem run_waiting_elapsed {s : State} {k : Console} {rs : List Response} {later : List Ctx}
    (hfits : fits s.cfg.tickW k.lastReportTick = true) :
    run 2 (s.waiting (.c :: .c :: later) k .pollPop (emptyRsp :: rs)) =
      .next (s.waiting later { k with sessionState := .idle } .pollElapsed
        (okValue (subN s.cfg.tickW s.ticks k.lastReportTick) :: emptyRsp :: rs)) :=
  run_waiting_of_query (i := .elapsed .c k.lastReportTick) nofun rfl hfits rfl rfl (exec_elapsed_e1 rfl)

/-- q1 and q2 of a POLL of an empty buffer, up to the answer of ELAPSED. -/
theorem run_poll_of_empty {s : State} {ts : List Task} {later : List Ctx} (hs : s.Inv) (hidle : s.seq = .idle)
    (hrest : s.con.prog = .rest) (hempty : s.head = s.tail) (htasks : s.env.tasks = .poll :: ts)
    (hsched : s.env.sched = .c :: .c :: .c :: .c :: .c :: later) :
    run 5 s = .next ((s.setTasks ts).waiting later { s.con with sessionState := .idle } .pollElapsed
      (okValue (subN s.cfg.tickW s.ticks s.con.lastReportTick) :: emptyRsp :: s.rsp.c)) :=
  (run_add 2 (run_pollPop_of_empty hidle hrest hempty htasks hsched)).trans (run_waiting_elapsed hs.reportTickFits)

end Sys2Proof.Machine
end

section
/-! PROOFS. The reference consumer program (R161 to R165). -/

namespace Sys2Proof

open Machine

/-- Settles O52: ELAPSED answers the ticks since `lastReportTick`; a sufficient answer is followed by the three readings
of a block that has not changed, and the answer added to `lastReportTick` is `ticks`. -/
theorem pollReportsWhenTheIntervalHasPassed : Obligations.PollReportsWhenTheIntervalHasPassed := by
  intro s ts later hs hidle hrest hempty htasks
  refine ⟨fun hdue hsched => ?_, fun hshort hsched => ?_⟩
  · have hfirst := run_poll_of_empty (later := List.replicate 8 Ctx.c ++ later) hs hidle hrest hempty htasks hsched
    have hreadings := run_readings (s := s.setTasks ts) (k := { s.con with sessionState := .idle })
      (rs := emptyRsp :: s.rsp.c) (later := .c :: later) hdue
    have hzero : (s.setTasks ts).available = 0 := available_of_empty hempty.symm
    have hstamp : addN s.cfg.tickW s.con.lastReportTick (subN s.cfg.tickW s.ticks s.con.lastReportTick) = s.ticks :=
      addN_subN s.cfg.tickW_le hs.ticksFit _
    rw [hzero] at hreadings
    exact Ends.run_add (a := 5) (b := 8) ⟨_, hfirst, Ends.run_add (a := 7) (b := 1) ⟨_, hreadings, Ends.run_one
      ⟨_, step_waiting_of_report, rfl, hstamp, rfl, rfl, rfl⟩⟩⟩
  · have hfirst := run_poll_of_empty (later := .c :: later) hs hidle hrest hempty htasks hsched
    exact Ends.run_add (a := 5) (b := 1) ⟨_, hfirst, Ends.run_one
      ⟨_, step_waiting_of_lt hshort, rfl, rfl, rfl, rfl, rfl⟩⟩

/-- Settles O53: the reaction is the software's alone, and each branch issues a command of context C or none. -/
theorem consoleActsOnlyThroughCommands : Obligations.ConsoleActsOnlyThroughCommands :=
  fun p r s => ⟨(progStep_softwareOnly p r s).1, progStep_issues_c p r s⟩

/-- Settles O51: the branches of the reaction to the POP of q1. -/
theorem consoleDispatchesTheByte : Obligations.ConsoleDispatchesTheByte := by
  refine fun s r => ⟨fun hnone => ?_, fun hok hstatus => ?_, fun hok hstatus hflush => ?_,
    fun hok hstatus hflush hecho => ?_, fun hok hstatus hflush hecho => ?_⟩
  · exact progStep_pollPop_of_not_ok hnone s
  · exact (progStep_pollPop_of_ok hok s).trans (dispatchByte_of_status hstatus)
  · exact (progStep_pollPop_of_ok hok s).trans (dispatchByte_of_flush hstatus hflush)
  · have hpolicy := applyEchoPolicy_of_ignore (s := s.setSession .idle) hecho (popByte r)
    rw [progStep_pollPop_of_ok hok, dispatchByte_of_other hstatus hflush, hpolicy]
    rfl
  · have hpolicy := applyEchoPolicy_of_echo (s := s.setSession .idle) hecho (popByte r)
    rw [progStep_pollPop_of_ok hok, dispatchByte_of_other hstatus hflush, hpolicy]
    rfl

end Sys2Proof
end

section
/-! SUPPORT. The turns of an agent that has nothing to issue (R188). -/

namespace Sys2Proof.Machine

theorem producerTurn_of_no_reqP {s : State} (h : s.env.reqP = []) : producerTurn s = .next s := by
  simp only [producerTurn, h]

theorem timerTurn_of_no_reqT {s : State} (h : s.env.reqT = []) : timerTurn s = .next s := by
  simp only [timerTurn, h]

theorem consumerTurn_of_no_tasks {s : State} (hidle : s.seq = .idle) (hrest : s.con.prog = .rest)
    (htasks : s.env.tasks = []) : consumerTurn s = .next s := by
  simp only [consumerTurn, consumerIdleTurn, hidle, Seq.instr, hrest, htasks]

end Sys2Proof.Machine
end

section
/-! SUPPORT. What an operation neither reads nor writes: the sequencer and the responses of port C, for a command of P
or T (R30, R191); the fields of context T, for a ring-buffer operation (R30, R193). -/

namespace Sys2Proof.Machine

/-- The outcome with `f` applied to its next state; a fault or a refusal stays as it is. -/
def mapNext (f : State → State) : Outcome State Fault Refusal → Outcome State Fault Refusal
  | .next s => .next (f s)
  | .fault r => .fault r
  | .refused r => .refused r

@[simp] theorem mapNext_next (f : State → State) (s : State) : mapNext f (.next s) = .next (f s) := rfl

/-- `s` with the sequencer at `q` and the responses `rs` on port C. -/
def State.withPortC (s : State) (q : Seq) (rs : List Response) : State := (s.setSeq q).setRsp { s.rsp with c := rs }

/-- `s` with the fields of context T (R30): `ticks` at `v` and the responses `rs` on port T. -/
def State.withTimer (s : State) (v : Word) (rs : List Response) : State := (s.setTicks v).setRsp { s.rsp with t := rs }

/-- The outcome of PUSH as a function of its two tests (R114). -/
theorem exec_push_eq (b : Byte) (s : State) :
    exec (.push b) s =
      if cursorSucc s.mask s.head = s.tail then
        .next (((s.setOverrunCount (satIncN s.cfg.cntW s.overrunCount)).setTotalReceivedCount
          (addN s.cfg.cntW s.totalReceivedCount 1)).respond .p fullRsp)
      else if s.hasSlot s.head = true then
        .next (((s.storeByte b).setTotalReceivedCount (addN s.cfg.cntW s.totalReceivedCount 1)).respond .p okDone)
      else .fault (.noSuchSlot s.head) := by
  rcases execPush_cases b s with ⟨hfull, hpush⟩ | ⟨hroom, hslot, hpush⟩ | ⟨hroom, hslot, hpush⟩
  · rw [if_pos hfull]
    exact hpush
  · rw [if_neg hroom, if_pos hslot]
    exact hpush
  · rw [if_neg hroom, if_neg (Bool.eq_false_iff.mp hslot)]
    exact hpush

/-! ### A command of P or T and port C -/

section
variable (s : State) (q : Seq) (rs : List Response)

theorem exec_push_withPortC (b : Byte) :
    exec (.push b) (s.withPortC q rs) = mapNext (·.withPortC q rs) (exec (.push b) s) := by
  rw [exec_push_eq b s, apply_ite (mapNext _), apply_ite (mapNext _)]
  exact exec_push_eq b (s.withPortC q rs)

theorem exec_withPortC {i : Instr} (hi : i.ctx ≠ .c) :
    exec i (s.withPortC q rs) = mapNext (·.withPortC q rs) (exec i s) := by
  cases i with
  | push b => exact exec_push_withPortC s q rs b
  | pop | flush | delay => exact absurd rfl hi
  | tick => rfl
  | avail x | rdovr x | rdtot x | now x | elapsed x =>
    cases x with
    | c => exact absurd rfl hi
    | p => rfl

theorem present_withPortC {port : Ctx} (hport : port ≠ .c) (x : Request) :
    present port x (s.withPortC q rs) = mapNext (·.withPortC q rs) (present port x s) := by
  rcases present_cases port x s with ⟨i, hdec, hx⟩ | ⟨e, hdec, hx⟩
  · have hctx : i.ctx ≠ .c := (decode_port hdec).1 ▸ hport
    rw [hx, ← exec_withPortC s q rs hctx]
    exact present_of_decode hdec
  · rw [hx, present_of_illegal (s := s.withPortC q rs) hdec]
    cases port with
    | c => exact absurd rfl hport
    | p | t => rfl

/-- A turn of P or T does the same to everything else, wherever the sequencer stands (R191). -/
theorem turn_withPortC {who : Ctx} (hwho : who ≠ .c) :
    turn who (s.withPortC q rs) = mapNext (·.withPortC q rs) (turn who s) := by
  cases who with
  | c => exact absurd rfl hwho
  | p =>
    cases hreq : s.env.reqP with
    | nil =>
      calc turn .p (s.withPortC q rs) = mapNext (·.withPortC q rs) (.next s) := producerTurn_of_no_reqP hreq
        _ = _ := congrArg _ (producerTurn_of_no_reqP hreq).symm
    | cons x xs =>
      calc turn .p (s.withPortC q rs) = present .p x ((s.setReqP xs).withPortC q rs) := producerTurn_of_reqP hreq
        _ = mapNext (·.withPortC q rs) (present .p x (s.setReqP xs)) := present_withPortC _ q rs hwho x
        _ = _ := congrArg _ (producerTurn_of_reqP hreq).symm
  | t =>
    cases hreq : s.env.reqT with
    | nil =>
      calc turn .t (s.withPortC q rs) = mapNext (·.withPortC q rs) (.next s) := timerTurn_of_no_reqT hreq
        _ = _ := congrArg _ (timerTurn_of_no_reqT hreq).symm
    | cons x xs =>
      calc turn .t (s.withPortC q rs) = present .t x ((s.setReqT xs).withPortC q rs) := timerTurn_of_reqT hreq
        _ = mapNext (·.withPortC q rs) (present .t x (s.setReqT xs)) := present_withPortC _ q rs hwho x
        _ = _ := congrArg _ (timerTurn_of_reqT hreq).symm

end

/-! ### A clock operation of context C and a turn of P -/

/-- `s` and `u` agree on all that a clock operation of context C reads or writes. -/
structure ClockAgrees (s u : State) : Prop where
  cfg : u.cfg = s.cfg
  seq : u.seq = s.seq
  ticks : u.ticks = s.ticks
  rspC : u.rsp.c = s.rsp.c

theorem TurnEffect.clockAgrees {s u : State} (h : TurnEffect .p s u) : ClockAgrees s u := by
  obtain ⟨hcfg, -, hc, ht⟩ := h.frame
  obtain ⟨-, hseq, -, hrsp⟩ := hc nofun
  exact ⟨hcfg, hseq, (ht nofun).1, hrsp⟩

section
variable {i : Instr} {s u : State}

theorem exec_clock_inFlight_of_agrees (hclock : i.opcode.getLsbD 3 = true) (hi : s.seq.instr = some i)
    (h : ClockAgrees s u) :
    ∃ q rs, exec i s = .next (s.withPortC q rs) ∧ exec i u = .next (u.withPortC q rs) := by
  obtain ⟨hcfg, hseq, hticks, hrsp⟩ := h
  cases hq : s.seq <;> rw [hq] at hi hseq <;> cases hi
  case nowN1 =>
    refine ⟨.idle, okValue s.ticks :: s.rsp.c, exec_now_n1 hq, ?_⟩
    rw [← hrsp, ← hticks]
    exact exec_now_n1 hseq
  case delayD1 n =>
    refine ⟨.delayD2 n s.ticks none, s.rsp.c, exec_delay_d1 hq, ?_⟩
    rw [← hrsp, ← hticks]
    exact exec_delay_d1 hseq
  case delayD2 arg start now =>
    rcases Nat.lt_or_ge (subN s.cfg.tickW s.ticks start).toNat arg.toNat with hlt | hle
    · refine ⟨.delayD2 arg start (some s.ticks), s.rsp.c, exec_delay_d2_of_lt hq hlt, ?_⟩
      rw [← hcfg, ← hticks] at hlt
      rw [← hrsp, ← hticks]
      exact exec_delay_d2_of_lt hseq hlt
    · refine ⟨.idle, okDone :: s.rsp.c, exec_delay_d2_of_le hq hle, ?_⟩
      rw [← hcfg, ← hticks] at hle
      rw [← hrsp]
      exact exec_delay_d2_of_le hseq hle
  case elapsedE1 n =>
    refine ⟨.idle, okValue (subN s.cfg.tickW s.ticks n) :: s.rsp.c, exec_elapsed_e1 hq, ?_⟩
    rw [← hrsp, ← hticks, ← hcfg]
    exact exec_elapsed_e1 hseq
  all_goals simp [Instr.opcode] at hclock

/-- A clock operation of context C writes port C alone, and alike in two states that agree on what it reads (R193). -/
theorem exec_clock_c_of_agrees (hctx : i.ctx = .c) (hclock : i.opcode.getLsbD 3 = true) (h : ClockAgrees s u) :
    ∃ q rs, exec i s = .next (s.withPortC q rs) ∧ exec i u = .next (u.withPortC q rs) := by
  by_cases hidle : s.seq = .idle
  · refine ⟨firstPosition i, s.rsp.c, exec_of_idle hctx hidle, ?_⟩
    rw [← h.rspC]
    exact exec_of_idle hctx (h.seq.trans hidle)
  · by_cases hown : s.seq.instr = some i
    · exact exec_clock_inFlight_of_agrees hclock hown h
    · have hbusy := mt instr_eq_none_iff.mp hidle
      refine ⟨s.seq, s.rsp.c, exec_of_busy hctx hbusy hown, ?_⟩
      rw [← h.seq] at hbusy hown
      rw [← h.rspC, ← h.seq]
      exact exec_of_busy hctx hbusy hown

end

/-! ### A ring-buffer operation and the fields of context T -/

section
variable (s : State) (v : Word) (rs : List Response)

theorem exec_push_withTimer (b : Byte) :
    exec (.push b) (s.withTimer v rs) = mapNext (·.withTimer v rs) (exec (.push b) s) := by
  rw [exec_push_eq b s, apply_ite (mapNext _), apply_ite (mapNext _)]
  exact exec_push_eq b (s.withTimer v rs)

theorem exec_pop_withTimer : exec .pop (s.withTimer v rs) = mapNext (·.withTimer v rs) (exec .pop s) := by
  have hseq : (s.withTimer v rs).seq = s.seq := rfl
  simp only [exec, execPop, hseq]
  cases s.seq with
  | popC2 h =>
    have htail : (s.withTimer v rs).tail = s.tail := rfl
    simp only [popC2, htail]
    split <;> rfl
  | popC3 h t =>
    have hread : memRead (s.withTimer v rs) t = memRead s t := rfl
    simp only [popC3, hread]
    cases memRead s t <;> rfl
  | _ => rfl

/-- A ring-buffer operation does the same to everything else, whatever context T has done (R193). -/
theorem exec_withTimer {i : Instr} (hring : i.opcode.getLsbD 3 = false) :
    exec i (s.withTimer v rs) = mapNext (·.withTimer v rs) (exec i s) := by
  have hseq : (s.withTimer v rs).seq = s.seq := rfl
  cases i with
  | push b => exact exec_push_withTimer s v rs b
  | pop => exact exec_pop_withTimer s v rs
  | tick | now | delay | elapsed => simp [Instr.opcode] at hring
  | flush =>
    simp only [exec, execFlush, hseq]
    cases s.seq <;> rfl
  | avail x | rdovr x | rdtot x =>
    cases x with
    | p => rfl
    | c =>
      simp only [exec, execAvail, execRdovr, execRdtot, hseq]
      cases s.seq <;> rfl

end

/-- Only TICK writes the fields of context T (R30). -/
theorem exec_keeps_timer {i : Instr} {s t : State} (hi : i.ctx ≠ .t) (h : exec i s = .next t) :
    t.cfg = s.cfg ∧ t.ticks = s.ticks ∧ t.rsp.t = s.rsp.t := by
  have hframe : t = s.setSeq t.seq ∨ TurnEffect i.ctx s t := by
    cases hctx : i.ctx with
    | p => exact .inr (exec_p_next hctx h)
    | t => exact absurd hctx hi
    | c =>
      rcases exec_c_cases hctx h with ⟨q, rfl⟩ | ⟨-, heff⟩
      · exact .inl rfl
      · exact .inr heff
  rcases hframe with hseq | heff
  · rw [hseq]
    exact ⟨rfl, rfl, rfl⟩
  · obtain ⟨hcfg, -, -, ht⟩ := heff.frame
    exact ⟨hcfg, ht hi⟩

/-- TICK and a ring-buffer operation end in the same state in either order (R193). -/
theorem exec_tick_comm {i : Instr} {s t u : State} (hring : i.opcode.getLsbD 3 = false) (h : exec i s = .next t)
    (htick : exec .tick s = .next u) : ∃ v, exec .tick t = .next v ∧ exec i u = .next v := by
  have hctx : i.ctx ≠ .t := fun hc => by simp [eq_tick_of_ctx hc, Instr.opcode] at hring
  obtain ⟨hcfg, hticks, hrsp⟩ := exec_keeps_timer hctx h
  have hu : u = s.withTimer (addN s.cfg.tickW s.ticks 1) (okDone :: s.rsp.t) := by
    cases htick
    rfl
  refine ⟨t.withTimer (addN t.cfg.tickW t.ticks 1) (okDone :: t.rsp.t), rfl, ?_⟩
  rw [hu, exec_withTimer s _ _ hring, h, mapNext_next, hcfg, hticks, hrsp]

end Sys2Proof.Machine
end

section
/-! PROOFS. The step and what commutes with it (R180, R188, R191, R193). -/

namespace Sys2Proof

open Machine

/-- Settles O43: under the invariant every agent's turn has a next state, and a step is a turn or nothing. -/
theorem stepNeverStops : Obligations.StepNeverStops := by
  intro s hs
  cases hsched : s.env.sched with
  | nil => exact ⟨s, step_of_no_sched hsched, trivial⟩
  | cons who later =>
    obtain ⟨t, ht⟩ := exists_turn_next who (hs.setEnv { s.env with sched := later })
    exact ⟨t, (step_of_sched hsched).trans ht, trivial⟩

/-- Settles O36: the turn writes none of the consumer's fields (R30), and it commutes with moving the sequencer. -/
theorem interruptsPreserveTheConsumer : Obligations.InterruptsPreserveTheConsumer := by
  intro s t who later hsched hwho h
  obtain ⟨-, -, hc, -⟩ := everyFieldHasOneWritingContext s t who later hsched h
  obtain ⟨htail, hseq, hcon, hrsp⟩ := hc hwho
  have hturn : turn who (s.setSched later) = .next t := (step_of_sched hsched).symm.trans h
  obtain ⟨e, heff, -, htasks, -⟩ := turn_interrupt_next hwho hturn
  have henv : t.env = e := heff.keeps_con_env.2
  refine ⟨hseq, htail, hcon, henv ▸ htasks, hrsp, fun q => ?_⟩
  calc step { s with seq := q } = turn who ((s.setSched later).withPortC q s.rsp.c) := step_of_sched hsched
    _ = mapNext (·.withPortC q s.rsp.c) (turn who (s.setSched later)) := turn_withPortC _ q _ hwho
    _ = .next (t.withPortC q t.rsp.c) := by rw [hturn, hrsp, mapNext_next]
    _ = .next { t with seq := q } := rfl

/-- Settles O38: TICK commutes with a ring-buffer operation, PUSH among them; a clock operation of context C writes
port C alone, which PUSH does not read. -/
theorem clockAndBufferOperationsCommute : Obligations.ClockAndBufferOperationsCommute := by
  refine ⟨fun _ _ _ _ => exec_tick_comm, fun i b s t u hclock hp h hpush => ?_⟩
  cases hctx : i.ctx with
  | p => exact absurd hctx hp
  | t =>
    cases eq_tick_of_ctx hctx
    have hring : (Instr.push b).opcode.getLsbD 3 = false := by simp [Instr.opcode]
    obtain ⟨v, htick, hpush'⟩ := exec_tick_comm hring hpush h
    exact ⟨v, hpush', htick⟩
  | c =>
    obtain ⟨q, rs, hs, hu⟩ := exec_clock_c_of_agrees hctx hclock (exec_push_next hpush).clockAgrees
    cases hs.symm.trans h
    refine ⟨u.withPortC q rs, ?_, hu⟩
    rw [exec_withPortC s q rs (i := .push b) nofun, hpush, mapNext_next]

/-- Settles O11: the turn goes to the port's next word, which is decoded, or to the operation in flight. -/
theorem stepRunsTheDecodedCommand : Obligations.StepRunsTheDecodedCommand := by
  refine ⟨fun s later x xs i hsched hreq hdec => ?_, fun s later x xs i hsched hreq hdec => ?_,
    fun s later x ts i hsched hidle hrest htasks hdec => ?_, fun s later i hsched hi => step_of_inFlight hi hsched⟩
  · calc step s = producerTurn (s.setSched later) := step_of_sched hsched
      _ = present .p x ((s.setSched later).setReqP xs) := producerTurn_of_reqP hreq
      _ = _ := present_of_decode hdec
  · calc step s = timerTurn (s.setSched later) := step_of_sched hsched
      _ = present .t x ((s.setSched later).setReqT xs) := timerTurn_of_reqT hreq
      _ = _ := present_of_decode hdec
  · calc step s = consumerTurn (s.setSched later) := step_of_sched hsched
      _ = present .c x ((s.setSched later).setTasks ts) := consumerTurn_of_command hidle hrest htasks
      _ = _ := present_of_decode hdec

/-- Settles O13: no turn, or a turn whose agent finds its stream empty. -/
theorem nothingChangesWithoutAnEnabledStep : Obligations.NothingChangesWithoutAnEnabledStep := by
  refine ⟨fun s => step_of_no_sched, fun s later hsched hreq => ?_, fun s later hsched hreq => ?_,
    fun s later hsched hidle hrest htasks => ?_⟩
  · exact (step_of_sched hsched).trans (producerTurn_of_no_reqP hreq)
  · exact (step_of_sched hsched).trans (timerTurn_of_no_reqT hreq)
  · exact (step_of_sched hsched).trans (consumerTurn_of_no_tasks hidle hrest htasks)

end Sys2Proof
end

section
/-! SUPPORT. Commands of context C that nothing preempts, issued one after the other by software at rest while no byte
is held (R188): what each of them answers, and in how many turns. -/

namespace Sys2Proof.Machine

/-- `s` with port C idle and the software at rest, `later` scheduled next, `ts` to issue, and `rs` answered on port C,
newest first. -/
def State.atRest (s : State) (later : List Ctx) (ts : List Task) (rs : List Response) : State :=
  (s.setTasks ts).waiting later s.con .rest rs

variable {s : State} {i : Instr} {rs : List Response} {ts : List Task} {later : List Ctx}

/-- The idle port C takes the next command in. -/
theorem step_atRest (hctx : i.ctx = .c) (hwf : i.wellFormed s.cfg.tickW = true) :
    step (s.atRest (.c :: later) (.command i.request :: ts) rs) =
      .next ((s.atRest later ts rs).setSeq (firstPosition i)) :=
  step_of_command hctx hwf rfl rfl rfl rfl

/-- A micro-step of the operation in flight. -/
theorem step_atRest_inFlight {q : Seq} (hq : q.instr = some i) :
    step ((s.atRest (.c :: later) ts rs).setSeq q) = exec i ((s.atRest later ts rs).setSeq q) :=
  step_of_inFlight hq rfl

/-- A command that its first micro-step answers takes two turns. -/
theorem run_atRest_of_one_step {t : State} (hctx : i.ctx = .c) (hwf : i.wellFormed s.cfg.tickW = true)
    (hfirst : (firstPosition i).instr = some i)
    (hexec : exec i ((s.atRest later ts rs).setSeq (firstPosition i)) = .next t) :
    run 2 (s.atRest (.c :: .c :: later) (.command i.request :: ts) rs) = .next t := by
  rw [run_succ 1 (step_atRest hctx hwf)]
  exact run_succ 0 ((step_atRest_inFlight hfirst).trans hexec)

/-- A command that its second micro-step answers, after the position `q`, takes three turns. -/
theorem run_atRest_of_two_steps {q : Seq} {t : State} (hctx : i.ctx = .c) (hwf : i.wellFormed s.cfg.tickW = true)
    (hfirst : (firstPosition i).instr = some i)
    (hexec : exec i ((s.atRest (.c :: later) ts rs).setSeq (firstPosition i)) =
      .next ((s.atRest (.c :: later) ts rs).setSeq q))
    (hq : q.instr = some i) (hexec' : exec i ((s.atRest later ts rs).setSeq q) = .next t) :
    run 3 (s.atRest (.c :: .c :: .c :: later) (.command i.request :: ts) rs) = .next t := by
  rw [run_succ 2 (step_atRest hctx hwf), run_succ 1 ((step_atRest_inFlight hfirst).trans hexec)]
  exact run_succ 0 ((step_atRest_inFlight hq).trans hexec')

theorem run_atRest_avail :
    run 3 (s.atRest (.c :: .c :: .c :: later) (.command (Instr.avail .c).request :: ts) rs) =
      .next (s.atRest later ts (okValue s.available :: rs)) :=
  run_atRest_of_two_steps rfl rfl rfl (exec_avail_a1 rfl) rfl (exec_avail_a2 rfl)

/-- A POP that finds no byte ends at c2. -/
theorem run_atRest_pop (hempty : s.head = s.tail) :
    run 3 (s.atRest (.c :: .c :: .c :: later) (.command Instr.pop.request :: ts) rs) =
      .next (s.atRest later ts (emptyRsp :: rs)) :=
  run_atRest_of_two_steps rfl rfl rfl (exec_pop_c1 rfl) rfl (exec_pop_c2_of_eq rfl hempty)

theorem run_atRest_rdovr :
    run 2 (s.atRest (.c :: .c :: later) (.command (Instr.rdovr .c).request :: ts) rs) =
      .next (s.atRest later ts (okValue s.overrunCount :: rs)) :=
  run_atRest_of_one_step rfl rfl rfl (exec_rdovr_r1 rfl)

theorem run_atRest_rdtot :
    run 2 (s.atRest (.c :: .c :: later) (.command (Instr.rdtot .c).request :: ts) rs) =
      .next (s.atRest later ts (okValue s.totalReceivedCount :: rs)) :=
  run_atRest_of_one_step rfl rfl rfl (exec_rdtot_t1 rfl)

theorem run_atRest_now :
    run 2 (s.atRest (.c :: .c :: later) (.command (Instr.now .c).request :: ts) rs) =
      .next (s.atRest later ts (okValue s.ticks :: rs)) :=
  run_atRest_of_one_step rfl rfl rfl (exec_now_n1 rfl)

theorem run_atRest_elapsed {stamp : Word} (hstamp : fits s.cfg.tickW stamp = true) :
    run 2 (s.atRest (.c :: .c :: later) (.command (Instr.elapsed .c stamp).request :: ts) rs) =
      .next (s.atRest later ts (okValue (subN s.cfg.tickW s.ticks stamp) :: rs)) :=
  run_atRest_of_one_step rfl hstamp rfl (exec_elapsed_e1 rfl)

/-- A FLUSH moves `tail` to `head`. -/
theorem run_atRest_flush :
    run 3 (s.atRest (.c :: .c :: .c :: later) (.command Instr.flush.request :: ts) rs) =
      .next ((s.setTail s.head).atRest later ts (okDone :: rs)) :=
  run_atRest_of_two_steps rfl rfl rfl (exec_flush_f1 rfl) rfl (exec_flush_f2 (h := s.head) rfl)

/-- The seven commands of R211, in its order. -/
def resetCommands : List Task :=
  [.command (Instr.avail .c).request, .command Instr.pop.request, .command (Instr.rdovr .c).request,
    .command (Instr.rdtot .c).request, .command (Instr.now .c).request, .command (Instr.elapsed .c 0).request,
    .command Instr.flush.request]

/-- What the commands of R211 answer wherever no byte is held, newest first. -/
theorem run_resetCommands (hempty : s.head = s.tail) :
    run 17 (s.atRest (List.replicate 17 .c ++ later) (resetCommands ++ ts) rs) =
      .next ((s.setTail s.head).atRest later ts
        (okDone :: okValue (subN s.cfg.tickW s.ticks 0) :: okValue s.ticks :: okValue s.totalReceivedCount ::
          okValue s.overrunCount :: emptyRsp :: okValue s.available :: rs)) :=
  calc run 17 _ = run 14 _ := run_add 14 run_atRest_avail
    _ = run 11 _ := run_add 11 (run_atRest_pop hempty)
    _ = run 9 _ := run_add 9 run_atRest_rdovr
    _ = run 7 _ := run_add 7 run_atRest_rdtot
    _ = run 5 _ := run_add 5 run_atRest_now
    _ = run 3 _ := run_add 3 (run_atRest_elapsed (fits_zero _))
    _ = _ := run_atRest_flush

/-- The ticks since the stamp 0 are the counter itself (R140). -/
theorem subN_zero {n : Nat} (hn : n ≤ 32) {now : Word} (hnow : fits n now = true) : subN n now 0 = now :=
  BitVec.eq_of_toNat_eq ((subN_toNat_of_fits hn hnow (fits_zero n)).trans (if_pos (Nat.zero_le _)))

end Sys2Proof.Machine
end

section
/-! SUPPORT. A burst of PUSH commands that the buffer has room for (R114, R211). -/

namespace Sys2Proof.Machine

/-- Every PUSH of the burst is answered OK, by induction on the bytes. -/
theorem run_pushes_of_room {bytes : List Byte} {s : State} {later : List Ctx} {reqs : List Request} (hs : s.Inv)
    (hroom : s.contents.length + bytes.length ≤ s.cfg.capacity - 1) (hreq : s.env.reqP = pushN bytes ++ reqs)
    (hsched : s.env.sched = List.replicate bytes.length .p ++ later) :
    Ends (run bytes.length s) fun t => t.rsp.p = List.replicate bytes.length okDone ++ s.rsp.p := by
  induction bytes generalizing s with
  | nil => exact ⟨s, rfl, rfl⟩
  | cons b bs ih =>
    have hinv : ((s.setSched (List.replicate bs.length .p ++ later)).setReqP (pushN bs ++ reqs)).Inv := hs.setEnv _
    rw [List.length_cons] at hroom
    obtain ⟨-, -, happends, -⟩ := pushAppendsUnlessCapacityMinusOneAreHeld b _ hinv
    have hlt : s.contents.length < s.cfg.capacity - 1 := by omega
    obtain ⟨t, hexec, (hcontents : t.contents = s.contents ++ [b]), (hrsp : t.rsp.p = okDone :: s.rsp.p)⟩ :=
      happends hlt
    have heff := exec_push_next hexec
    obtain ⟨(hcfg : t.cfg = s.cfg), -⟩ := heff.frame
    obtain ⟨-, henv⟩ := heff.keeps_con_env
    have hroom' : t.contents.length + bs.length ≤ t.cfg.capacity - 1 := by
      rw [hcontents, hcfg, List.length_append, List.length_singleton]
      omega
    refine Ends.run_succ ⟨t, (step_of_push hsched hreq).trans hexec, ?_⟩
    refine (ih (heff.keeps_inv hinv) hroom' (henv ▸ rfl) (henv ▸ rfl)).imp fun u hu => ?_
    rw [hu, hrsp, List.length_cons, List.replicate_succ', List.append_assoc, List.singleton_append]

end Sys2Proof.Machine
end

section
/-! PROOFS. The answers right after reset (R211). -/

namespace Sys2Proof

open Machine

/-- Settles O47: the constructed block holds no byte and its counters are 0, so the seven commands find it so; and the
buffer has room for `CAPACITY - 1` bytes. -/
theorem answersRightAfterReset : Obligations.AnswersRightAfterReset := by
  refine ⟨fun cfg later ts rp rt hcfg => ?_, fun cfg bytes later ts rp rt hcfg hlen => ?_⟩
  · have hrun := run_resetCommands (s := (State.construct cfg).setEnv ⟨[], [], rp, rt⟩) (later := later) (ts := ts)
      (rs := []) rfl
    have hnone : (State.construct cfg).available = 0 := available_of_empty rfl
    have helapsed : subN cfg.tickW cfg.tickInit 0 = cfg.tickInit :=
      subN_zero cfg.tickW_le (construct_inv hcfg).ticksFit
    refine ⟨_, hrun, ?_, rfl, rfl⟩
    change [okValue (State.construct cfg).available, emptyRsp, okValue 0, okValue 0, okValue cfg.tickInit,
      okValue (subN cfg.tickW cfg.tickInit 0), okDone] = _
    rw [hnone, helapsed]
    rfl
  · have hinv : ((State.construct cfg).setEnv
        ⟨List.replicate bytes.length Ctx.p ++ later, ts, pushN bytes ++ rp, rt⟩).Inv := (construct_inv hcfg).setEnv _
    have hnone := (contents_eq_nil_iff hinv).mpr rfl
    have hburst := run_pushes_of_room hinv (by rw [hnone, List.length_nil, Nat.zero_add]; exact hlen) rfl rfl
    exact hburst.imp fun t ht => ht.trans (List.append_nil _)

end Sys2Proof
end
